-- ==== Sys2Proof/Word.lean ====
section
/-! DEFINITION. The two word types of the machine, the 16-bit memory word and the 17-bit register value,
and their plainest parts (spec/00_scope.md R108, R109). -/

namespace Sys2Proof

/-- A memory word, an instruction word or an address: 16 bits (R106, R161). -/
abbrev Word16 := BitVec 16

/-- A register value: 17 bits, the flag above 16 data bits (R109, R121). -/
abbrev RegVal := BitVec 17

/-- `v.F` of R109: bit 16. -/
def flagOf (v : RegVal) : Bool := v.getLsbD 16

/-- `v.D` of R109: bits 15:0. -/
def dataOf (v : RegVal) : Word16 := v.setWidth 16

/-- The register value with flag `f` and data `d` (R109: the flag is the high bit). -/
def mkVal (f : Bool) (d : Word16) : RegVal := (BitVec.ofBool f ++ d).cast rfl

end Sys2Proof
end

