-- ==== Sys2Proof/Syntax.lean ====
section
/-! DEFINITION. Abstract syntax: register names and the instructions, one constructor per row of
spec/opcode_table.json (spec/30_encoding.md R191 to R196, R200). -/

namespace Sys2Proof

/-- The 16 register names (spec/10_state.md R121), sorted by how they behave: R0 to R7 are plain and have
shadows, R8 to R12 are plain (R122, R123), R13 decrements (R124), R14 is the stack port (R125), R15 is the
program counter (R126). -/
inductive Reg where
  /-- `lo i` is R`i`, for i from 0 to 7. -/
  | lo (i : Fin 8)
  /-- `hi i` is R`8+i`, for i from 0 to 4. -/
  | hi (i : Fin 5)
  | r13
  | r14
  | r15
deriving DecidableEq, Repr

abbrev Reg.r0 : Reg := .lo 0
abbrev Reg.r1 : Reg := .lo 1
abbrev Reg.r2 : Reg := .lo 2
abbrev Reg.r3 : Reg := .lo 3
abbrev Reg.r4 : Reg := .lo 4
abbrev Reg.r5 : Reg := .lo 5
abbrev Reg.r6 : Reg := .lo 6
abbrev Reg.r7 : Reg := .lo 7
abbrev Reg.r8 : Reg := .hi 0
abbrev Reg.r9 : Reg := .hi 1
abbrev Reg.r10 : Reg := .hi 2
abbrev Reg.r11 : Reg := .hi 3
abbrev Reg.r12 : Reg := .hi 4

/-- The instructions. The operand fields are those of R191: `rd`, `rs1`, `rs2` name registers, `imm4` and `imm8`
are the immediate bits as they stand in the word. In STORE the field rd is a source (spec/90_conflicts.md C5). -/
inductive Instr where
  | and (rd rs1 rs2 : Reg)
  | nand (rd rs1 rs2 : Reg)
  | or (rd rs1 rs2 : Reg)
  | xor (rd rs1 rs2 : Reg)
  | add (rd rs1 rs2 : Reg)
  | sub (rd rs1 rs2 : Reg)
  | shr (rd rs1 rs2 : Reg)
  | shl (rd rs1 rs2 : Reg)
  | ali (rd : Reg) (imm8 : BitVec 8)
  | sui (rd : Reg) (imm8 : BitVec 8)
  | addi (rd rs1 : Reg) (imm4 : BitVec 4)
  | bitw (rd rs1 rs2 : Reg)
  | load (rd rs1 rs2 : Reg)
  | store (rd rs1 rs2 : Reg)
  | caiz (rd rs1 : Reg) (imm4 : BitVec 4)
  | caif (rd rs1 : Reg) (imm4 : BitVec 4)
  /-- The pseudo-operation NOP, the word 0x0000 (R200, R285). -/
  | nop
  /-- The pseudo-operation IRET, the word 0x9F00 (R199, R200, R315). -/
  | iret
deriving DecidableEq, Repr

end Sys2Proof
end

