-- ==== Sys2Proof/WellFormed.lean ====
section
/-! DEFINITION. Which terms of `Instr` are the decoding of a word. Every field value is legal
(spec/30_encoding.md R198); only the two words with a pseudo-operation's name have two spellings (R200). -/

namespace Sys2Proof

/-- Each word has one spelling: 0x0000 is NOP and not `AND R0, R0, R0`, 0x9F00 is IRET and not `SUI R15, 0x00`
(R200; notes/assumptions/15.md). The two other spellings run all the same, with the meaning of R221 and R252. -/
def Instr.wellFormed (i : Instr) : Bool :=
  i != .and .r0 .r0 .r0 && i != .sui .r15 0x00#8

end Sys2Proof
end

