-- ==== Sys2Proof/Decode.lean ====
section
/-! DEFINITION. Decoding, total on all 65536 words (spec/30_encoding.md R197, R198), and after it the
encoder, written from the formats of R192 and the layout of R202. -/

namespace Sys2Proof

/-- The register that a 4-bit field names: the value `n` names R`n` (R191). -/
def regOfBits (b : BitVec 4) : Reg :=
  if h : b.toNat < 8 then .lo ⟨b.toNat, h⟩
  else if h : b.toNat - 8 < 5 then .hi ⟨b.toNat - 8, h⟩
  else if b.toNat = 13 then .r13
  else if b.toNat = 14 then .r14
  else .r15

/-- Bits 11:8 of the word as a register (R191). -/
def fieldRd (w : Word16) : Reg := regOfBits (w.extractLsb' 8 4)

/-- Bits 7:4 of the word as a register (R191). -/
def fieldRs1 (w : Word16) : Reg := regOfBits (w.extractLsb' 4 4)

/-- Bits 3:0 of the word as a register (R191). -/
def fieldRs2 (w : Word16) : Reg := regOfBits (w.extractLsb' 0 4)

/-- Bits 3:0 of the word as an immediate (R191, R193). -/
def fieldImm4 (w : Word16) : BitVec 4 := w.extractLsb' 0 4

/-- Bits 7:0 of the word as an immediate (R191, R194). -/
def fieldImm8 (w : Word16) : BitVec 8 := w.extractLsb' 0 8

/-- The row of the opcode table (R196) that the opcode field selects, with its operands. -/
def decodeRow (w : Word16) : Instr :=
  match (w.extractLsb' 12 4).toNat with
  | 0x0 => .and (fieldRd w) (fieldRs1 w) (fieldRs2 w)
  | 0x1 => .nand (fieldRd w) (fieldRs1 w) (fieldRs2 w)
  | 0x2 => .or (fieldRd w) (fieldRs1 w) (fieldRs2 w)
  | 0x3 => .xor (fieldRd w) (fieldRs1 w) (fieldRs2 w)
  | 0x4 => .add (fieldRd w) (fieldRs1 w) (fieldRs2 w)
  | 0x5 => .sub (fieldRd w) (fieldRs1 w) (fieldRs2 w)
  | 0x6 => .shr (fieldRd w) (fieldRs1 w) (fieldRs2 w)
  | 0x7 => .shl (fieldRd w) (fieldRs1 w) (fieldRs2 w)
  | 0x8 => .ali (fieldRd w) (fieldImm8 w)
  | 0x9 => .sui (fieldRd w) (fieldImm8 w)
  | 0xA => .addi (fieldRd w) (fieldRs1 w) (fieldImm4 w)
  | 0xB => .bitw (fieldRd w) (fieldRs1 w) (fieldRs2 w)
  | 0xC => .load (fieldRd w) (fieldRs1 w) (fieldRs2 w)
  | 0xD => .store (fieldRd w) (fieldRs1 w) (fieldRs2 w)
  | 0xE => .caiz (fieldRd w) (fieldRs1 w) (fieldImm4 w)
  | _ => .caif (fieldRd w) (fieldRs1 w) (fieldImm4 w)

/-- The instruction of a word. The two words that R200 names decode to their pseudo-operation; what the word 0x9F00
does with no ISR active is in the meaning of IRET (R197, R199; notes/assumptions/15.md). -/
def decode (w : Word16) : Instr :=
  if w = 0x0000#16 then .nop
  else if w = 0x9F00#16 then .iret
  else decodeRow w

/-- The instruction whose bits are `w`, numbered as spec/opcode_table.json numbers them: one 16-bit word, the bits above
`nbits` zero. There is no longer instruction (R190). -/
def decodeTableWord (nbits w : Nat) : Option Instr :=
  if nbits ≤ 16 then some (decode (BitVec.ofNat 16 (w % 2 ^ nbits))) else none

/-- The 4-bit field that names a register (R191). -/
def regBits : Reg → BitVec 4
  | .lo i => BitVec.ofNat 4 i.val
  | .hi i => BitVec.ofNat 4 (8 + i.val)
  | .r13 => 13#4
  | .r14 => 14#4
  | .r15 => 15#4

/-- Format `R` (R192). -/
def encodeR (op : BitVec 4) (rd rs1 rs2 : Reg) : Word16 :=
  op ++ regBits rd ++ regBits rs1 ++ regBits rs2

/-- Format `I4` (R192). -/
def encodeI4 (op : BitVec 4) (rd rs1 : Reg) (imm4 : BitVec 4) : Word16 :=
  op ++ regBits rd ++ regBits rs1 ++ imm4

/-- Format `I8` (R192). -/
def encodeI8 (op : BitVec 4) (rd : Reg) (imm8 : BitVec 8) : Word16 :=
  op ++ regBits rd ++ imm8

/-- The word of an instruction (R196, R200, R202). -/
def encode : Instr → Word16
  | .and rd rs1 rs2 => encodeR 0x0#4 rd rs1 rs2
  | .nand rd rs1 rs2 => encodeR 0x1#4 rd rs1 rs2
  | .or rd rs1 rs2 => encodeR 0x2#4 rd rs1 rs2
  | .xor rd rs1 rs2 => encodeR 0x3#4 rd rs1 rs2
  | .add rd rs1 rs2 => encodeR 0x4#4 rd rs1 rs2
  | .sub rd rs1 rs2 => encodeR 0x5#4 rd rs1 rs2
  | .shr rd rs1 rs2 => encodeR 0x6#4 rd rs1 rs2
  | .shl rd rs1 rs2 => encodeR 0x7#4 rd rs1 rs2
  | .ali rd imm8 => encodeI8 0x8#4 rd imm8
  | .sui rd imm8 => encodeI8 0x9#4 rd imm8
  | .addi rd rs1 imm4 => encodeI4 0xA#4 rd rs1 imm4
  | .bitw rd rs1 rs2 => encodeR 0xB#4 rd rs1 rs2
  | .load rd rs1 rs2 => encodeR 0xC#4 rd rs1 rs2
  | .store rd rs1 rs2 => encodeR 0xD#4 rd rs1 rs2
  | .caiz rd rs1 imm4 => encodeI4 0xE#4 rd rs1 imm4
  | .caif rd rs1 imm4 => encodeI4 0xF#4 rd rs1 imm4
  | .nop => 0x0000#16
  | .iret => 0x9F00#16

end Sys2Proof
end

