-- ==== Sys2Proof/Machine/Params.lean ====
section
/-! DEFINITION. The named parameters of spec/00_scope.md R107 that an instruction or the machine consults, and
their defaults. The model takes them as an argument: they stand in `State.cfg`, and no step changes them
(notes/assumptions/5.md). -/

namespace Sys2Proof.Machine

/-- `IMM4_EXT`, `IMM8_EXT`: how an immediate is extended (spec/30_encoding.md R193, R194). -/
inductive Ext where
  | sign
  | zero
deriving DecidableEq, Repr

/-- `SUI_LOW`: what SUI does to data bits 7:0 of rd (spec/43_immediate.md R252). -/
inductive SuiLow where
  | clear
  | keep
deriving DecidableEq, Repr

/-- `LOGIC_WIDTH`: the logic instructions act on 17 bits, or on 16 with the flag cleared (spec/40_logic.md R220). -/
inductive LogicWidth where
  | w17
  | w16
deriving DecidableEq, Repr

/-- `SHR_FLAG_SOURCE`: whose flag selects the mode of SHR (spec/42_shift.md R241). -/
inductive ShrFlagSource where
  | rs1
  | rs2
  | rd
deriving DecidableEq, Repr

/-- `SHR_FILL`: what an arithmetic SHR shifts in (R241). -/
inductive ShrFill where
  | bit15
  | flag
deriving DecidableEq, Repr

/-- `SHIFT_AMOUNT_MODE`: the shift amount for rs2 data of 16 and more (R240). `unset` is the spec's OPEN. -/
inductive ShiftAmountMode where
  | unset
  | low4
  | low5
  | full
deriving DecidableEq, Repr

/-- `ZERO_TEST_WIDTH`: CAIZ tests the 16 data bits or all 17 bits (spec/46_conditional.md R276). -/
inductive ZeroTestWidth where
  | w16
  | w17
deriving DecidableEq, Repr

/-- `R13_READ`: a source read of R13 gives the value before or after the decrement (spec/10_state.md R135). -/
inductive R13Read where
  | before
  | after
deriving DecidableEq, Repr

/-- `SHADOW_MODE`: interrupt entry copies R0 to R7, or exchanges them with the second bank (spec/60_exceptions.md R310). -/
inductive ShadowMode where
  | copy
  | bank
deriving DecidableEq, Repr

/-- The parameters of R107. `R14_OVERFLOW`, `R14_UNDERFLOW` and `DEVICE_READ` are free values of `Config`, `IRQ` is the
schedule `State.env`, `UART_WORD_ORDER` is an argument of the functions that read characters, and `IRET_OUTSIDE_ISR`
is `plain_sui` (notes/assumptions/5.md). -/
structure Params where
  /-- `IMEM_WORDS`. -/
  imemWords : Nat
  /-- `DMEM_WORDS`. -/
  dmemWords : Nat
  /-- `PC_READ_OFFSET`. -/
  pcReadOffset : Word16
  /-- `IMM4_EXT`. -/
  imm4Ext : Ext
  /-- `IMM8_EXT`. -/
  imm8Ext : Ext
  /-- `SUI_LOW`. -/
  suiLow : SuiLow
  /-- `LOGIC_WIDTH`. -/
  logicWidth : LogicWidth
  /-- `SHR_FLAG_SOURCE`. -/
  shrFlagSource : ShrFlagSource
  /-- `SHR_FILL`. -/
  shrFill : ShrFill
  /-- `SHIFT_AMOUNT_MODE`. -/
  shiftAmountMode : ShiftAmountMode
  /-- `ZERO_TEST_WIDTH`. -/
  zeroTestWidth : ZeroTestWidth
  /-- `R13_READ`. -/
  r13Read : R13Read
  /-- `SHADOW_MODE`. -/
  shadowMode : ShadowMode
deriving DecidableEq, Repr

/-- The defaults of R107. The two sizes are OPEN there; DESIGN CHOICE: the largest a 16-bit address and the I/O boundary allow
(notes/assumptions/4.md). -/
def defaultParams : Params where
  imemWords := 0x10000
  dmemWords := 0x8000
  pcReadOffset := 0
  imm4Ext := .sign
  imm8Ext := .zero
  suiLow := .clear
  logicWidth := .w17
  shrFlagSource := .rs1
  shrFill := .bit15
  shiftAmountMode := .unset
  zeroTestWidth := .w16
  r13Read := .before
  shadowMode := .copy

/-- What R107 says of the sizes: both vectors lie in IMEM, and DMEM ends at or below 0x8000. -/
def paramsOk (p : Params) : Bool :=
  decide (0x3FFF < p.imemWords) && decide (p.dmemWords ≤ 0x8000)

end Sys2Proof.Machine
end

