-- ==== Sys2Proof/Machine/State.lean ====
section
/-! DEFINITION. The machine's state as plain data (spec/10_state.md R120), the reasons a step can stop, and
the state after reset (R142, spec/70_reset_and_hazards.md R381). -/

namespace Sys2Proof.Machine

/-- One listed memory word and its address. The addressable unit of both memories is the 16-bit word and there is no byte
order (spec/20_memory.md R161, R164; notes/assumptions/1.md). -/
abbrev Cell := Nat × Word16

/-- A memory: the words that something has written, by rising address. An address that is not listed holds no value of
the list's; what it reads as is said by the operation that reads it. -/
abbrev Memory := List Cell

/-- The canonical form of a memory: addresses strictly rising, each a 16-bit address. -/
abbrev Memory.wf (m : Memory) : Prop :=
  m.Pairwise (fun c d => c.1 < d.1) ∧ ∀ c ∈ m, c.1 < 0x10000

/-- A device access, as the environment sees it (spec/60_exceptions.md R340). -/
inductive DevEvent where
  | read (addr value : Word16)
  | write (addr value : Word16)
deriving DecidableEq, Repr

/-- The two speeds of R400. -/
inductive Speed where
  | fast
  | slow
deriving DecidableEq, Repr

/-- The memory the front panel has selected: IMEM, or DMEM/IO (R401, R402). -/
inductive MemSel where
  | imem
  | data
deriving DecidableEq, Repr

/-- The front panel's state (spec/10_state.md R120, R401). -/
structure Altair where
  on : Bool
  sel : MemSel
  addr : Word16
  /-- The word the last Examine put on the LEDs, if the panel has done nothing since. -/
  shown : Option Word16
deriving DecidableEq, Repr

/-- What the person at the board does (R403). -/
inductive HostAction where
  /-- BTNR: reset (R380). -/
  | btnr
  /-- BTNC: the other speed (R400). -/
  | btnc
  /-- A short press of BTNL: enter Altair mode, or select the other memory in it (R401). -/
  | btnlShort
  /-- A long press of BTNL: leave Altair mode (R401). -/
  | btnlLong
  /-- BTNU: Examine (R401). -/
  | btnu
  /-- BTND: Deposit (R401). -/
  | btnd
  /-- The slide switches are set to present `v` (R343, R403). -/
  | setSwitches (v : Word16)
deriving DecidableEq, Repr

/-- One entry of the environment's schedule: the CPU takes its step with the two request lines at the given
levels (spec/60_exceptions.md R305), or the person acts between two steps (R403). -/
inductive EnvEvent where
  | cpu (irq1 irq2 : Bool)
  | host (a : HostAction)
deriving DecidableEq, Repr

/-- The two request lines (R305). -/
inductive IrqLine where
  | irq1
  | irq2
deriving DecidableEq, Repr

/-- Why a step stops. -/
inductive Fault where
  /-- Raised by the CPU's step when the fetch address is at or above `IMEM_WORDS`: `UNSPECIFIED(IFETCH_OUT_OF_RANGE)`,
  which a model refuses (spec/20_memory.md R165, U2; notes/assumptions/10.md). Safe. -/
  | ifetchOutOfRange
deriving DecidableEq, Repr

/-- Why an instruction has no meaning here. -/
inductive Refusal where
  /-- The model has no meaning yet for the instruction of that name. No arm of `exec` raises it. Safe. -/
  | notModelled (mnemonic : String)
deriving DecidableEq, Repr

/-- The state: the rows of R120, the environment's side of the interface, and the model's own `cfg`, `draws` and
`dmemEpoch`. -/
structure State where
  /-- The parameters of R107. No step changes them. -/
  cfg : Params
  /-- R0 to R7 (R121, R122). -/
  lo : Vector RegVal 8
  /-- R8 to R12 (R122, R123). -/
  hi : Vector RegVal 5
  /-- R13 (R124). -/
  r13 : RegVal
  /-- The entries behind R14, the first pushed at index 0 (R125, R140). -/
  stk : Vector RegVal 8
  /-- The number of entries held, 0 to 8 (R120, R140). -/
  sp : Fin 9
  /-- The data part of R15 (R126, R128). -/
  pc : Word16
  /-- The flag of R15 (R126, R141). -/
  r15f : Bool
  /-- The shadows of R0 to R7 (R131). -/
  sh : Vector RegVal 8
  /-- Whether an interrupt service routine is active (R132). -/
  isrActive : Bool
  /-- Where the interrupted program resumes (R132). -/
  retPc : Word16
  /-- Instruction memory (R133). -/
  imem : Memory
  /-- Data RAM (R133). -/
  dmem : Memory
  /-- The model's own: how many resets DMEM has seen (notes/assumptions/19.md). -/
  dmemEpoch : Nat
  /-- Device accesses so far, in program order (R340, R170). -/
  events : List DevEvent
  /-- The environment's answers to the next device reads (R340; notes/assumptions/12.md). -/
  devIn : List Word16
  /-- The model's own: how many free values have been drawn (notes/assumptions/20.md). -/
  draws : Nat
  /-- The speed setting (R400). -/
  speed : Speed
  /-- The front panel (R401). -/
  altair : Altair
  /-- The word that the slide switches present (R343, R401). -/
  switches : Word16
  /-- Who acts next, and how; empty: the CPU, with no request (R305, R403; notes/assumptions/14.md). -/
  env : List EnvEvent
deriving DecidableEq, Repr

/-- The machine at power-up, which is the reset state with the speed fast and Altair mode off (R142, R381). The sizes in
`cfg`, the panel's selection and address, and the switches are DESIGN CHOICE (notes/assumptions/4.md, 17.md); what the
spec decides for the stack and the shadows is followed (18.md). -/
def State.reset : State where
  cfg := defaultParams
  lo := Vector.replicate 8 0
  hi := #v[0, 0, 0, 0, 1]
  r13 := 0
  stk := Vector.replicate 8 0
  sp := 0
  pc := 0
  r15f := false
  sh := Vector.replicate 8 0
  isrActive := false
  retPc := 0
  imem := []
  dmem := []
  dmemEpoch := 0
  events := []
  devIn := []
  draws := 0
  speed := .fast
  altair := { on := false, sel := .imem, addr := 0, shown := none }
  switches := 0
  env := []

end Sys2Proof.Machine
end

