-- ==== Sys2Proof/Machine/Devices.lean ====
section
/-! DEFINITION. The memory-mapped device registers: their addresses, the R/W column and the fields that
spec/60_exceptions.md R341 to R373 list. What a device does behind a register is the environment's (R105, R340);
the field functions read a word that was stored to, or loaded from, a register. -/

namespace Sys2Proof.Machine

/-- The 29 listed registers (R341 to R372), in the order of their rules. -/
inductive DevReg where
  | cycleCtr
  | secondsCtr
  | switches
  | leds
  | txData
  | rxData
  | txStatus
  | rxStatus
  | txByte
  | charInput
  | charCoord
  | charControl
  | pixelData
  | graphicsCoord
  | graphicsCtrl
  | status
  | palette1
  | palette2
  | flipControl
  | colorValues
  | colorCoord
  | colorControl
  | romAddr
  | romData
  | romStatus
  | sawFreq
  | sawDuration
  | squareFreq
  | squareDuration
deriving DecidableEq, Repr

/-- The R/W column (R373). -/
inductive Access where
  | r
  | w
  | rw
deriving DecidableEq, Repr

/-- A row of the device tables: register, address, R/W mark. -/
structure DevRow where
  reg : DevReg
  addr : Word16
  access : Access
deriving DecidableEq, Repr

/-- The device tables, one row per register, by rising address within each block (R341 to R372). -/
def devTable : List DevRow :=
  [ ⟨.cycleCtr, 0xFFFC, .rw⟩, ⟨.secondsCtr, 0xFFFD, .rw⟩, ⟨.switches, 0xFFFE, .r⟩, ⟨.leds, 0xFFFF, .rw⟩ ] ++
  [ ⟨.txData, 0xFFE0, .w⟩, ⟨.rxData, 0xFFE1, .r⟩, ⟨.txStatus, 0xFFE2, .r⟩, ⟨.rxStatus, 0xFFE3, .r⟩,
    ⟨.txByte, 0xFFE4, .w⟩ ] ++
  [ ⟨.charInput, 0xFFD0, .rw⟩, ⟨.charCoord, 0xFFD1, .rw⟩, ⟨.charControl, 0xFFD2, .w⟩,
    ⟨.pixelData, 0xFFD5, .rw⟩, ⟨.graphicsCoord, 0xFFD6, .rw⟩, ⟨.graphicsCtrl, 0xFFD7, .w⟩,
    ⟨.status, 0xFFD9, .r⟩, ⟨.palette1, 0xFFDA, .rw⟩, ⟨.palette2, 0xFFDB, .rw⟩, ⟨.flipControl, 0xFFDC, .rw⟩,
    ⟨.colorValues, 0xFFDD, .rw⟩, ⟨.colorCoord, 0xFFDE, .rw⟩, ⟨.colorControl, 0xFFDF, .w⟩ ] ++
  [ ⟨.romAddr, 0xFFC0, .w⟩, ⟨.romData, 0xFFC1, .r⟩, ⟨.romStatus, 0xFFC2, .r⟩ ] ++
  [ ⟨.sawFreq, 0xFFB0, .rw⟩, ⟨.sawDuration, 0xFFB1, .rw⟩, ⟨.squareFreq, 0xFFB2, .rw⟩,
    ⟨.squareDuration, 0xFFB3, .rw⟩ ]

/-- The row of the register listed at a data address, if one is (R162). -/
def devRowAt (a : Word16) : Option DevRow := devTable.find? (fun r => r.addr == a)

/-- The five 16-address blocks of R162 that hold the device groups. -/
inductive DevBlock where
  | audio
  | rom
  | gpu
  | uart
  | simpleIo
deriving DecidableEq, Repr

/-- The block of a data address (R162). -/
def devBlockAt (a : Word16) : Option DevBlock :=
  match (a.extractLsb' 4 12).toNat with
  | 0xFFB => some .audio
  | 0xFFC => some .rom
  | 0xFFD => some .gpu
  | 0xFFE => some .uart
  | 0xFFF => some .simpleIo
  | _ => none

/-- A named field of a device register: bits `hi` down to `lo` of its word (R108). -/
structure DevField where
  name : String
  hi : Nat
  lo : Nat
deriving DecidableEq, Repr

/-- A field's value in a word of the register. -/
def DevField.value (f : DevField) (w : Word16) : Nat := (w.toNat >>> f.lo) % 2 ^ (f.hi + 1 - f.lo)

/-- The fields that R341 to R372 give a place; bits without a name are not described. The bits of `PALETTE_2` are the guess
R359 names, those of `COLOR_VALUES` the reading of R361, that of `TX_BYTE` what R349 presumes (notes/assumptions/26.md). -/
def devFields : DevReg → List DevField
  | .txByte => [⟨"Char", 7, 0⟩]
  | .txStatus => [⟨"Full", 3, 3⟩, ⟨"Empty", 2, 2⟩, ⟨"Busy", 1, 1⟩]
  | .rxStatus => [⟨"Full", 3, 3⟩, ⟨"Empty", 2, 2⟩, ⟨"Avail", 1, 1⟩, ⟨"Padded", 0, 0⟩]
  | .charInput => [⟨"ASCII2+inv", 15, 8⟩, ⟨"ASCII1+inv", 7, 0⟩]
  | .charCoord => [⟨"Y", 12, 8⟩, ⟨"X", 5, 0⟩]
  | .charControl => [⟨"Clear", 11, 11⟩, ⟨"Add", 10, 10⟩, ⟨"FixPos", 9, 9⟩, ⟨"PutChar", 8, 8⟩]
  | .graphicsCoord => [⟨"Y", 15, 8⟩, ⟨"X", 5, 0⟩]
  | .graphicsCtrl => [⟨"Clear", 11, 11⟩, ⟨"Add", 10, 10⟩, ⟨"FixPos", 9, 9⟩, ⟨"PutPixel", 8, 8⟩]
  | .status => [⟨"Busy", 0, 0⟩]
  | .palette1 => [⟨"Palette rows 0-15", 15, 0⟩]
  | .palette2 => [⟨"Palette rows 16-24", 8, 0⟩]
  | .flipControl => [⟨"Display buffer", 9, 9⟩, ⟨"Write buffer", 8, 8⟩]
  | .colorValues => [⟨"FG", 15, 12⟩, ⟨"BG", 11, 8⟩]
  | .colorCoord => [⟨"Y", 12, 8⟩, ⟨"X", 5, 0⟩]
  | .colorControl => [⟨"Clear colors", 11, 11⟩, ⟨"PutColor", 8, 8⟩]
  | .romStatus => [⟨"Data valid", 0, 0⟩]
  | .cycleCtr | .secondsCtr | .switches | .leds | .txData | .rxData | .pixelData | .romAddr | .romData
  | .sawFreq | .sawDuration | .squareFreq | .squareDuration => [⟨"Word", 15, 0⟩]

/-- `UART_WORD_ORDER`: which character of a UART word goes first on the line (R107, R345, U20). OPEN, so an argument
(notes/assumptions/24.md). -/
inductive UartWordOrder where
  | lowFirst
  | highFirst
deriving DecidableEq, Repr

/-- The two characters of a word written to TX_DATA or read from RX_DATA, the first on the line first (R345, R346). -/
def uartChars (o : UartWordOrder) (w : Word16) : List (BitVec 8) :=
  match o with
  | .lowFirst => [w.extractLsb' 0 8, w.extractLsb' 8 8]
  | .highFirst => [w.extractLsb' 8 8, w.extractLsb' 0 8]

/-- The characters that one device event queues for transmission: two by TX_DATA, one by TX_BYTE (R345, R349).
DESIGN CHOICE: a write queues its characters whether or not the 4-entry FIFO is full, a case that R347 leaves open
(notes/assumptions/28.md). -/
def transmittedChars (o : UartWordOrder) : DevEvent → List (BitVec 8)
  | .write a v =>
    match (devRowAt a).map DevRow.reg with
    | some .txData => uartChars o v
    | some .txByte => [v.extractLsb' 0 8]
    | _ => []
  | .read _ _ => []

/-- The word last written to a register, by the record of events: for LEDS, what the LEDs were set to (R344). -/
def lastWritten (a : Word16) (events : List DevEvent) : Option Word16 :=
  events.foldl (fun seen e => match e with
    | .write b v => if b = a then some v else seen
    | .read _ _ => seen) none

end Sys2Proof.Machine
end

