-- ==== Sys2Proof/Config.lean ====
section
/-! DEFINITION. The values that the spec leaves open, as constants without a body: nothing can be proved of
them, so a claim holds whatever they are. A constant that may give a new value at each use is applied to the
model's own counter `State.draws` (notes/assumptions/20.md). -/

namespace Sys2Proof

/-- IMEM's content before anything is loaded or deposited, by address: the program parameter of
spec/70_reset_and_hazards.md R381 (notes/assumptions/2.md). -/
opaque Config.imemPowerUp : Word16 → Word16

/-- DMEM's content after the reset numbered `epoch`, by address: "unspecified" (spec/10_state.md R142), any value per word,
fixed at reset time (spec/93_implementation_defined.md U19; notes/assumptions/3.md). -/
opaque Config.dmemPowerUp : Nat → Word16 → Word16

/-- The environment's answer to a device read for which it has queued none, by draw and address
(spec/60_exceptions.md R340, U12; notes/assumptions/12.md). -/
opaque Config.deviceRead : Nat → Word16 → Word16

/-- The value read where nothing is behind an address, by draw and address (U7; notes/assumptions/11.md). -/
opaque Config.unmappedRead : Nat → Word16 → Word16

/-- The shift amount for rs2 data of 16 and more while `SHIFT_AMOUNT_MODE` is unset, by that data
(spec/42_shift.md R240, U5; notes/assumptions/9.md). -/
opaque Config.shiftAmountGe16 : Word16 → Word16

/-- The value read from the empty R14 stack (spec/10_state.md R135, U4; notes/assumptions/7.md). -/
opaque Config.r14UnderflowValue : Nat → RegVal

/-- The stack (entries and depth) after a pop or a modify-top of the empty stack (R137, U4; notes/assumptions/7.md). -/
opaque Config.r14UnderflowStack : Nat → Vector RegVal 8 × Fin 9

/-- The stack (entries and depth) after a push onto the full stack (R137, U3; notes/assumptions/8.md). -/
opaque Config.r14OverflowStack : Nat → Vector RegVal 8 × Fin 9

/-- Whether the data space is the memory selected on entry to Altair mode: "which memory is selected on entry is not stated"
(spec/70_reset_and_hazards.md R401; notes/assumptions/16.md). -/
opaque Config.altairEntryData : Nat → Bool

end Sys2Proof
end

