-- ==== Sys2Proof/Machine/Flags.lean ====
section
/-! DEFINITION. The 17-bit value, flag included, that each instruction computes from its operands
(spec/10_state.md R129, spec/40_logic.md to spec/46_conditional.md). -/

namespace Sys2Proof.Machine

/-- `zext_17` of 16 data bits (spec/00_scope.md R110). -/
def zext17 (d : Word16) : RegVal := d.setWidth 17

/-- A logic result by `LOGIC_WIDTH`: the 17-bit operation as it stands, or its data with flag 0 (R220). -/
def logicResult (width : LogicWidth) (v : RegVal) : RegVal :=
  match width with
  | .w17 => v
  | .w16 => zext17 (dataOf v)

/-- The 17-bit sum of two data words: data is the wrapped sum, flag the carry (R230, R231). -/
def addVal (a b : RegVal) : RegVal := zext17 (dataOf a) + zext17 (dataOf b)

/-- The 17-bit difference of two data words: data is the wrapped difference, flag the borrow (R230, R232). -/
def subVal (a b : RegVal) : RegVal := zext17 (dataOf a) - zext17 (dataOf b)

/-- `ShiftAmount` of R240. -/
def shiftAmount (mode : ShiftAmountMode) (b : RegVal) : Nat :=
  if (dataOf b).toNat ≤ 15 then (dataOf b).toNat
  else match mode with
    | .unset => (Config.shiftAmountGe16 (dataOf b)).toNat
    | .low4 => (dataOf b).toNat % 16
    | .low5 => (dataOf b).toNat % 32
    | .full => (dataOf b).toNat

/-- Data shifted right by `n`, the vacated high bits equal to `fill` (R241). -/
def shiftRightFill (d : Word16) (n : Nat) (fill : Bool) : Word16 :=
  (d >>> n) ||| (if fill then ~~~(BitVec.allOnes 16 >>> n) else 0)

/-- The bit that SHR shifts in: 0 in a logical shift, else by `SHR_FILL` data bit 15 or bit 16, the flag of the value
shifted (R241, spec/00_scope.md R107). -/
def shrFillBit (fill : ShrFill) (arithmetic : Bool) (a : RegVal) : Bool :=
  arithmetic && match fill with
    | .bit15 => (dataOf a).getLsbD 15
    | .flag => flagOf a

/-- The result of SHR: `mode` is the flag that selects the arithmetic shift; the flag written is that of rs1 (R241). -/
def shrVal (fill : ShrFill) (mode : Bool) (a : RegVal) (n : Nat) : RegVal :=
  mkVal (flagOf a) (shiftRightFill (dataOf a) n (shrFillBit fill mode a))

/-- The result of SHL: the 17-bit value shifted left (R242). -/
def shlVal (a : RegVal) (n : Nat) : RegVal := a <<< n

/-- The addend of imm4 (R193). -/
def imm4Addend (ext : Ext) (imm4 : BitVec 4) : RegVal :=
  match ext with
  | .sign => imm4.signExtend 17
  | .zero => imm4.setWidth 17

/-- The addend of imm8 (R194). -/
def imm8Addend (ext : Ext) (imm8 : BitVec 8) : RegVal :=
  match ext with
  | .sign => imm8.signExtend 17
  | .zero => imm8.setWidth 17

/-- The result of ALI from the old value of rd (R251). -/
def aliVal (ext : Ext) (t : RegVal) (imm8 : BitVec 8) : RegVal := zext17 (dataOf t) + imm8Addend ext imm8

/-- The low byte of the value SUI writes (R252). -/
def suiLowByte (low : SuiLow) (t : RegVal) : BitVec 8 :=
  match low with
  | .clear => 0
  | .keep => (dataOf t).extractLsb' 0 8

/-- The result of SUI; `t` is the old value of rd, consulted only when the low byte is kept (R252). -/
def suiVal (low : SuiLow) (t : RegVal) (imm8 : BitVec 8) : RegVal := mkVal false (imm8 ++ suiLowByte low t)

/-- The result of ADDI, and of CAIZ and CAIF when their condition holds (R253, R276, R277). -/
def addiVal (ext : Ext) (a : RegVal) (imm4 : BitVec 4) : RegVal := zext17 (dataOf a) + imm4Addend ext imm4

/-- `HighBit` among the bits below `k`. -/
def highBitBelow : Nat → Word16 → Nat
  | 0, _ => 0
  | k + 1, m => if m.getLsbD k then k + 1 else highBitBelow k m

/-- `HighBit` of R260. -/
def highBit (m : Word16) : Nat := highBitBelow 16 m

/-- The result of BITW (R261). -/
def bitwVal (a b : RegVal) : RegVal := mkVal false (BitVec.ofNat 16 (highBit (dataOf a &&& dataOf b)))

/-- The condition of CAIZ (R276). -/
def zeroCond (width : ZeroTestWidth) (c : RegVal) : Bool :=
  match width with
  | .w16 => dataOf c == 0
  | .w17 => c == 0

/-- The value of R13 after an auto-decrement: the data one lower, the flag as it was (spec/10_state.md R139). -/
def decVal (v : RegVal) : RegVal := mkVal (flagOf v) (dataOf v - 1)

end Sys2Proof.Machine
end

