-- ==== Sys2Proof/Machine/Operands.lean ====
section
/-! DEFINITION. Operand reads (spec/10_state.md R135), the effective address (spec/45_load_store.md R265) and
the positions of R138 that depend on a parameter. Reading changes nothing; the commit applies the side effects. -/

namespace Sys2Proof.Machine

/-- The top of the R14 stack, a free value when it is empty (R135; notes/assumptions/7.md). -/
def stackTop (s : State) : RegVal :=
  if s.sp = 0 then Config.r14UnderflowValue s.draws
  else s.stk[s.sp.val - 1]'(by have := s.sp.isLt; omega)

/-- `x[i]` of a register that stands in no decrement position of the instruction: R13 as it is stored (R135, R138). -/
def destVal (s : State) : Reg → RegVal
  | .lo i => s.lo[i.val]
  | .hi i => s.hi[i.val]
  | .r13 => s.r13
  | .r14 => stackTop s
  | .r15 => mkVal s.r15f (s.pc + s.cfg.pcReadOffset)

/-- `x[i]` in a source position: rs1, rs2, or the rd of STORE (R135, R138). -/
def srcVal (s : State) (r : Reg) : RegVal :=
  if r = .r13 ∧ s.cfg.r13Read = .after then decVal s.r13 else destVal s r

/-- `x[rd]` where rd is read and is no decrement position itself; `decs` are the decrement positions of the instruction. A
register that stands in one too gives both positions the same value (R135; notes/assumptions/6.md). -/
def rdVal (decs : List Reg) (s : State) (rd : Reg) : RegVal :=
  if rd ∈ decs then srcVal s rd else destVal s rd

/-- `EA` of LOAD and STORE (R265). -/
def effAddr (s : State) (rs1 rs2 : Reg) : Word16 := dataOf (srcVal s rs1) + dataOf (srcVal s rs2)

/-- The read positions of SUI: none, or rd when the low byte is kept (R138, R252). -/
def suiReads (low : SuiLow) (rd : Reg) : List Reg :=
  match low with
  | .clear => []
  | .keep => [rd]

/-- The read positions of SHR: rs1 and rs2, and rd when its flag is the one consulted (R138, R241). -/
def shrReads (src : ShrFlagSource) (rd rs1 rs2 : Reg) : List Reg :=
  match src with
  | .rs1 | .rs2 => [rs1, rs2]
  | .rd => [rs1, rs2, rd]

/-- The flag that selects the mode of SHR (R241, `SHR_FLAG_SOURCE`). -/
def shrMode (s : State) (rd rs1 rs2 : Reg) : Bool :=
  match s.cfg.shrFlagSource with
  | .rs1 => flagOf (srcVal s rs1)
  | .rs2 => flagOf (srcVal s rs2)
  | .rd => flagOf (rdVal [rs1, rs2] s rd)

end Sys2Proof.Machine
end

