-- ==== Sys2Proof/Machine/Ops.lean ====
section
/-! DEFINITION. The operations every instruction is written with: updates of one part of the state, the
two memories (spec/20_memory.md), the commit (spec/10_state.md R137), interrupt entry and the return from one
(spec/60_exceptions.md R310, R315). -/

namespace Sys2Proof.Machine

/-! ### Updates of one part of the state -/

def State.withLo (s : State) (i : Fin 8) (v : RegVal) : State := { s with lo := s.lo.set i.val v }
def State.withHi (s : State) (i : Fin 5) (v : RegVal) : State := { s with hi := s.hi.set i.val v }
def State.withR13 (s : State) (v : RegVal) : State := { s with r13 := v }
def State.withStack (s : State) (k : Vector RegVal 8) (p : Fin 9) : State := { s with stk := k, sp := p }
def State.withPc (s : State) (t : Word16) : State := { s with pc := t }
def State.withR15 (s : State) (v : RegVal) : State := { s with pc := dataOf v, r15f := flagOf v }
def State.withBank (s : State) (r h : Vector RegVal 8) : State := { s with lo := r, sh := h }
def State.withIsr (s : State) (b : Bool) (r : Word16) : State := { s with isrActive := b, retPc := r }
def State.withImem (s : State) (m : Memory) : State := { s with imem := m }
def State.withDmem (s : State) (m : Memory) : State := { s with dmem := m }
def State.withDevIn (s : State) (q : List Word16) : State := { s with devIn := q }
def State.withAltair (s : State) (a : Altair) : State := { s with altair := a }
def State.withSpeed (s : State) (v : Speed) : State := { s with speed := v }
def State.withSwitches (s : State) (v : Word16) : State := { s with switches := v }
def State.withEnv (s : State) (q : List EnvEvent) : State := { s with env := q }

/-- A device access happens, after all earlier ones (R340). -/
def State.record (s : State) (e : DevEvent) : State := { s with events := s.events ++ [e] }

/-- A free value has been drawn: the next draw is another (notes/assumptions/20.md). -/
def State.bump (s : State) : State := { s with draws := s.draws + 1 }

/-! ### Memories -/

/-- The word listed at an address, if one is. -/
def memLookup : Memory → Nat → Option Word16
  | [], _ => none
  | (b, w) :: m, a => if a = b then some w else if a < b then none else memLookup m a

/-- The memory with `v` at an address, in canonical form. -/
def memInsert : Memory → Nat → Word16 → Memory
  | [], a, v => [(a, v)]
  | (b, w) :: m, a, v =>
    if a = b then (a, v) :: m
    else if a < b then (a, v) :: (b, w) :: m
    else (b, w) :: memInsert m a v

/-- The word of IMEM at an address: what was loaded or deposited, else the program parameter (R165, R381). -/
def imemWord (s : State) (a : Word16) : Word16 := (memLookup s.imem a.toNat).getD (Config.imemPowerUp a)

/-- The word of DMEM at an address: what was written since the last reset, else the free value fixed by that reset
(R166, R142, U19). -/
def ramWord (s : State) (a : Word16) : Word16 :=
  (memLookup s.dmem a.toNat).getD (Config.dmemPowerUp s.dmemEpoch a)

/-- What stands at a data address (R162). -/
inductive DataRegion where
  /-- `DMEM`. -/
  | ram
  /-- `DMEM_WORDS` to 0x7FFF: nothing documented. -/
  | hole
  /-- A listed device register. -/
  | device (row : DevRow)
  /-- An address of the I/O region without a listed register. -/
  | ioUnmapped
deriving DecidableEq, Repr

/-- The data address map (R162, R166). -/
def dataRegion (p : Params) (a : Word16) : DataRegion :=
  if 0x8000 ≤ a.toNat then
    match devRowAt a with
    | some row => .device row
    | none => .ioUnmapped
  else if a.toNat < p.dmemWords then .ram
  else .hole

/-- The environment's answer to a device read: the next one queued, else a free value (R340, U12). -/
def deviceAnswer (s : State) (a : Word16) : Word16 × State :=
  match s.devIn with
  | v :: q => (v, s.withDevIn q)
  | [] => (Config.deviceRead s.draws a, s.bump)

/-- The value a listed register reads as: SWITCHES gives the switches' positions (R343; notes/assumptions/13.md), any other the
environment's answer (R340), also where the register is marked write only (R373). -/
def deviceValue (s : State) (row : DevRow) : Word16 × State :=
  match row.reg with
  | .switches => (s.switches, s)
  | _ => deviceAnswer s row.addr

/-- `MemRead(a, 16)` (R166): the word, and the state after the access. A read where nothing is gives a free
value (U7; notes/assumptions/11.md); every read in the I/O region is an event (R168, R340). -/
def memRead (s : State) (a : Word16) : Word16 × State :=
  match dataRegion s.cfg a with
  | .ram => (ramWord s a, s)
  | .hole => (Config.unmappedRead s.draws a, s.bump)
  | .device row =>
    let (v, t) := deviceValue s row
    (v, t.record (.read a v))
  | .ioUnmapped =>
    let v := Config.unmappedRead s.draws a
    (v, s.bump.record (.read a v))

/-- `MemWrite(a, 16, v)` (R167). A write where nothing is has no effect (U7; notes/assumptions/11.md); every
write in the I/O region is an event (R168, R340). -/
def memWrite (s : State) (a v : Word16) : State :=
  match dataRegion s.cfg a with
  | .ram => s.withDmem (memInsert s.dmem a.toNat v)
  | .hole => s
  | .device _ => s.record (.write a v)
  | .ioUnmapped => s.record (.write a v)

/-- `IFetch(a)` (R165); nothing at or above `IMEM_WORDS`. -/
def ifetch (s : State) (a : Word16) : Option Word16 :=
  if a.toNat < s.cfg.imemWords then some (imemWord s a) else none

/-! ### The commit (R137) -/

/-- A destination write: the register number and the value of `x[i] <- v`, or none (R136). -/
abbrev Dest := Option (Reg × RegVal)

/-- The value that a destination write gives the register `r`, if it is the one written. -/
def destAt (dest : Dest) (r : Reg) : Option RegVal :=
  match dest with
  | some (q, v) => if q = r then some v else none
  | none => none

/-- R13 auto-decrement: once, unless the instruction writes R13 itself (R137, R139). -/
def commitDec (decs : List Reg) (dest : Dest) (s : State) : State :=
  if .r13 ∈ decs ∧ destAt dest .r13 = none then s.withR13 (decVal s.r13) else s

/-- A stack whose content and depth the spec leaves open, after a pop or modify-top of the empty stack
(`UNSPECIFIED(R14_UNDERFLOW)`; notes/assumptions/7.md). -/
def stackUnderflow (s : State) : State :=
  (s.withStack (Config.r14UnderflowStack s.draws).1 (Config.r14UnderflowStack s.draws).2).bump

/-- A stack whose content and depth the spec leaves open, after a push onto the full stack
(`UNSPECIFIED(R14_OVERFLOW)`; notes/assumptions/8.md). -/
def stackOverflow (s : State) : State :=
  (s.withStack (Config.r14OverflowStack s.draws).1 (Config.r14OverflowStack s.draws).2).bump

/-- Read only: pop (R140). -/
def stackPop (s : State) : State :=
  if s.sp = 0 then stackUnderflow s else s.withStack s.stk (s.sp - 1)

/-- Write only: push (R140). -/
def stackPush (s : State) (v : RegVal) : State :=
  if s.sp = 8 then stackOverflow s else s.withStack (s.stk.setIfInBounds s.sp.val v) (s.sp + 1)

/-- Read and write: modify top (R140). -/
def stackModify (s : State) (v : RegVal) : State :=
  if s.sp = 0 then stackUnderflow s else s.withStack (s.stk.setIfInBounds (s.sp.val - 1) v) s.sp

/-- The stack action of an instruction (R137): what it does to R14 decides. -/
def commitStack (reads : List Reg) (dest : Dest) (s : State) : State :=
  match decide (.r14 ∈ reads), destAt dest .r14 with
  | true, some v => stackModify s v
  | true, none => stackPop s
  | false, some v => stackPush s v
  | false, none => s

/-- The plain destinations R0 to R13 (R137). -/
def commitPlain (dest : Dest) (s : State) : State :=
  match dest with
  | some (.lo i, v) => s.withLo i v
  | some (.hi i, v) => s.withHi i v
  | some (.r13, v) => s.withR13 v
  | some (.r14, _) => s
  | some (.r15, _) => s
  | none => s

/-- The program counter: a write of R15 is a branch, otherwise the next word follows (R137, R141). -/
def commitPc (dest : Dest) (s : State) : State :=
  match destAt dest .r15 with
  | some v => s.withR15 v
  | none => s.withPc (s.pc + 1)

/-- The commit of an instruction with these read positions, decrement positions and destination write (R137). The four
parts act on different parts of the state, so each sees what the instruction found. -/
def commit (reads decs : List Reg) (dest : Dest) (s : State) : State :=
  commitPc dest (commitPlain dest (commitStack reads dest (commitDec decs dest s)))

/-! ### Interrupts -/

/-- The instruction address at which a line's service routine starts (spec/20_memory.md R163). -/
def irqVector : IrqLine → Word16
  | .irq1 => 0x3FE0
  | .irq2 => 0x3FC0

/-- The line that is taken when an interrupt may be: IRQ1 before IRQ2 (R308), none while an ISR is active (R316). -/
def irqTaken (s : State) (irq1 irq2 : Bool) : Option IrqLine :=
  if s.isrActive then none
  else if irq1 then some .irq1
  else if irq2 then some .irq2
  else none

/-- R0 to R7 and their shadows on interrupt entry, by `SHADOW_MODE` (R310). -/
def saveBank (s : State) : State :=
  match s.cfg.shadowMode with
  | .copy => s.withBank s.lo s.lo
  | .bank => s.withBank s.sh s.lo

/-- R0 to R7 and their shadows on the return from an interrupt, by `SHADOW_MODE` (R310, R315). -/
def restoreBank (s : State) : State :=
  match s.cfg.shadowMode with
  | .copy => s.withBank s.sh s.sh
  | .bank => s.withBank s.sh s.lo

/-- `TakeInterrupt(k)` (R310). -/
def takeInterrupt (k : IrqLine) (s : State) : State :=
  ((saveBank s).withIsr true s.pc).withPc (irqVector k)

/-- The return from an interrupt, "ISR exit" (R315). -/
def returnFromInterrupt (s : State) : State :=
  ((restoreBank s).withIsr false s.retPc).withPc s.retPc

end Sys2Proof.Machine
end

