-- ==== Sys2Proof/Machine/Arith.lean ====
section
/-! DEFINITION. ADD, SUB and BITW (spec/41_arith.md R230 to R232, spec/44_bitw.md R261). -/

namespace Sys2Proof.Machine

/-- ADD (R231). -/
def execAdd (rd rs1 rs2 : Reg) (s : State) : Host.Outcome State Fault Refusal :=
  .next (commit [rs1, rs2] [rs1, rs2] (some (rd, addVal (srcVal s rs1) (srcVal s rs2))) s)

/-- SUB (R232). -/
def execSub (rd rs1 rs2 : Reg) (s : State) : Host.Outcome State Fault Refusal :=
  .next (commit [rs1, rs2] [rs1, rs2] (some (rd, subVal (srcVal s rs1) (srcVal s rs2))) s)

/-- BITW (R261). -/
def execBitw (rd rs1 rs2 : Reg) (s : State) : Host.Outcome State Fault Refusal :=
  .next (commit [rs1, rs2] [rs1, rs2] (some (rd, bitwVal (srcVal s rs1) (srcVal s rs2))) s)

end Sys2Proof.Machine
end

