-- ==== Sys2Proof/Machine/Conditional.lean ====
section
/-! DEFINITION. CAIZ and CAIF (spec/46_conditional.md R275 to R277). -/

namespace Sys2Proof.Machine

/-- The common part of CAIZ and CAIF: rs1 is always a source; rd is read and written only when the condition holds
(R275). -/
def conditionalAdd (cond : Bool) (rd rs1 : Reg) (imm4 : BitVec 4) (s : State) : State :=
  if cond then commit [rs1, rd] [rs1] (some (rd, addiVal s.cfg.imm4Ext (rdVal [rs1] s rd) imm4)) s
  else commit [rs1] [rs1] none s

/-- CAIZ (R276). -/
def execCaiz (rd rs1 : Reg) (imm4 : BitVec 4) (s : State) : Host.Outcome State Fault Refusal :=
  .next (conditionalAdd (zeroCond s.cfg.zeroTestWidth (srcVal s rs1)) rd rs1 imm4 s)

/-- CAIF (R277). -/
def execCaif (rd rs1 : Reg) (imm4 : BitVec 4) (s : State) : Host.Outcome State Fault Refusal :=
  .next (conditionalAdd (flagOf (srcVal s rs1)) rd rs1 imm4 s)

end Sys2Proof.Machine
end

