-- ==== Sys2Proof/Machine/Immediate.lean ====
section
/-! DEFINITION. ALI, SUI and ADDI (spec/43_immediate.md R250 to R253). -/

namespace Sys2Proof.Machine

/-- ALI (R251): rd is read and not decremented. -/
def execAli (rd : Reg) (imm8 : BitVec 8) (s : State) : Host.Outcome State Fault Refusal :=
  .next (commit [rd] [] (some (rd, aliVal s.cfg.imm8Ext (destVal s rd) imm8)) s)

/-- SUI (R252). -/
def execSui (rd : Reg) (imm8 : BitVec 8) (s : State) : Host.Outcome State Fault Refusal :=
  .next (commit (suiReads s.cfg.suiLow rd) [] (some (rd, suiVal s.cfg.suiLow (destVal s rd) imm8)) s)

/-- ADDI (R253). -/
def execAddi (rd rs1 : Reg) (imm4 : BitVec 4) (s : State) : Host.Outcome State Fault Refusal :=
  .next (commit [rs1] [rs1] (some (rd, addiVal s.cfg.imm4Ext (srcVal s rs1) imm4)) s)

end Sys2Proof.Machine
end

