-- ==== Sys2Proof/Machine/LoadStore.lean ====
section
/-! DEFINITION. LOAD and STORE (spec/45_load_store.md R265 to R267). -/

namespace Sys2Proof.Machine

/-- LOAD (R266): the word read, with flag 0. -/
def execLoad (rd rs1 rs2 : Reg) (s : State) : Host.Outcome State Fault Refusal :=
  let r := memRead s (effAddr s rs1 rs2)
  .next (commit [rs1, rs2] [rs1, rs2] (some (rd, mkVal false r.1)) r.2)

/-- STORE (R267): rd is a source, no register is written, the flag is not stored. -/
def execStore (rd rs1 rs2 : Reg) (s : State) : Host.Outcome State Fault Refusal :=
  .next (commit [rd, rs1, rs2] [rd, rs1, rs2] none
    (memWrite s (effAddr s rs1 rs2) (dataOf (srcVal s rd))))

end Sys2Proof.Machine
end

