-- ==== Sys2Proof/Machine/Logic.lean ====
section
/-! DEFINITION. AND, NAND, OR, XOR and the pseudo-operation NOP (spec/40_logic.md R220 to R224,
spec/47_control_transfer.md R285). -/

namespace Sys2Proof.Machine

/-- AND (R221). -/
def execAnd (rd rs1 rs2 : Reg) (s : State) : Host.Outcome State Fault Refusal :=
  .next (commit [rs1, rs2] [rs1, rs2]
    (some (rd, logicResult s.cfg.logicWidth (srcVal s rs1 &&& srcVal s rs2))) s)

/-- NAND (R222). -/
def execNand (rd rs1 rs2 : Reg) (s : State) : Host.Outcome State Fault Refusal :=
  .next (commit [rs1, rs2] [rs1, rs2]
    (some (rd, logicResult s.cfg.logicWidth (~~~(srcVal s rs1 &&& srcVal s rs2)))) s)

/-- OR (R223). -/
def execOr (rd rs1 rs2 : Reg) (s : State) : Host.Outcome State Fault Refusal :=
  .next (commit [rs1, rs2] [rs1, rs2]
    (some (rd, logicResult s.cfg.logicWidth (srcVal s rs1 ||| srcVal s rs2))) s)

/-- XOR (R224). -/
def execXor (rd rs1 rs2 : Reg) (s : State) : Host.Outcome State Fault Refusal :=
  .next (commit [rs1, rs2] [rs1, rs2]
    (some (rd, logicResult s.cfg.logicWidth (srcVal s rs1 ^^^ srcVal s rs2))) s)

/-- NOP, the word of `AND R0, R0, R0`: "It executes by rule R221" (R285). -/
def execNop (s : State) : Host.Outcome State Fault Refusal :=
  .next (commit [.r0, .r0] [.r0, .r0]
    (some (.r0, logicResult s.cfg.logicWidth (srcVal s .r0 &&& srcVal s .r0))) s)

end Sys2Proof.Machine
end

