-- ==== Sys2Proof/Machine/Shift.lean ====
section
/-! DEFINITION. SHR and SHL (spec/42_shift.md R240 to R242). -/

namespace Sys2Proof.Machine

/-- SHR (R241). -/
def execShr (rd rs1 rs2 : Reg) (s : State) : Host.Outcome State Fault Refusal :=
  .next (commit (shrReads s.cfg.shrFlagSource rd rs1 rs2) [rs1, rs2]
    (some (rd, shrVal s.cfg.shrFill (shrMode s rd rs1 rs2) (srcVal s rs1)
      (shiftAmount s.cfg.shiftAmountMode (srcVal s rs2)))) s)

/-- SHL (R242). -/
def execShl (rd rs1 rs2 : Reg) (s : State) : Host.Outcome State Fault Refusal :=
  .next (commit [rs1, rs2] [rs1, rs2]
    (some (rd, shlVal (srcVal s rs1) (shiftAmount s.cfg.shiftAmountMode (srcVal s rs2)))) s)

end Sys2Proof.Machine
end

