-- ==== Sys2Proof/Machine/System.lean ====
section
/-! DEFINITION. The word 0x9F00: IRET while an ISR is active, `SUI R15, 0x00` otherwise
(spec/60_exceptions.md R315, spec/30_encoding.md R199). -/

namespace Sys2Proof.Machine

/-- IRET (R315); with no ISR active, the SUI that the word is (R199, R252, `IRET_OUTSIDE_ISR = plain_sui`). -/
def execIret (s : State) : Host.Outcome State Fault Refusal :=
  if s.isrActive then .next (returnFromInterrupt s)
  else .next (commit (suiReads s.cfg.suiLow .r15) []
    (some (.r15, suiVal s.cfg.suiLow (destVal s .r15) 0)) s)

end Sys2Proof.Machine
end

