-- ==== Sys2Proof/Machine/Dispatch.lean ====
section
/-! DEFINITION. The meaning of each instruction, one arm per constructor. -/

namespace Sys2Proof.Machine

def exec (i : Instr) (s : State) : Host.Outcome State Fault Refusal :=
  match i with
  | .and rd rs1 rs2 => Sys2Proof.Machine.execAnd rd rs1 rs2 s
  | .nand rd rs1 rs2 => Sys2Proof.Machine.execNand rd rs1 rs2 s
  | .or rd rs1 rs2 => Sys2Proof.Machine.execOr rd rs1 rs2 s
  | .xor rd rs1 rs2 => Sys2Proof.Machine.execXor rd rs1 rs2 s
  | .add rd rs1 rs2 => Sys2Proof.Machine.execAdd rd rs1 rs2 s
  | .sub rd rs1 rs2 => Sys2Proof.Machine.execSub rd rs1 rs2 s
  | .shr rd rs1 rs2 => Sys2Proof.Machine.execShr rd rs1 rs2 s
  | .shl rd rs1 rs2 => Sys2Proof.Machine.execShl rd rs1 rs2 s
  | .ali rd imm8 => Sys2Proof.Machine.execAli rd imm8 s
  | .sui rd imm8 => Sys2Proof.Machine.execSui rd imm8 s
  | .addi rd rs1 imm4 => Sys2Proof.Machine.execAddi rd rs1 imm4 s
  | .bitw rd rs1 rs2 => Sys2Proof.Machine.execBitw rd rs1 rs2 s
  | .load rd rs1 rs2 => Sys2Proof.Machine.execLoad rd rs1 rs2 s
  | .store rd rs1 rs2 => Sys2Proof.Machine.execStore rd rs1 rs2 s
  | .caiz rd rs1 imm4 => Sys2Proof.Machine.execCaiz rd rs1 imm4 s
  | .caif rd rs1 imm4 => Sys2Proof.Machine.execCaif rd rs1 imm4 s
  | .nop => Sys2Proof.Machine.execNop s
  | .iret => Sys2Proof.Machine.execIret s

end Sys2Proof.Machine
end

