-- ==== Sys2Proof/Machine/Panel.lean ====
section
/-! DEFINITION. What the person at the board does and sees: reset, speed, Altair mode, the display and the
LEDs (spec/70_reset_and_hazards.md R380 to R382, R400 to R403, spec/20_memory.md R175). -/

namespace Sys2Proof.Machine

/-- The reset event: the processor's rows of spec/10_state.md R142. IMEM, speed and Altair mode stay, DMEM becomes
unspecified, so a new set of free values (R380, R382; notes/assumptions/19.md). -/
def resetEvent (s : State) : State :=
  { s with
    lo := Vector.replicate 8 0
    hi := #v[0, 0, 0, 0, 1]
    r13 := 0
    stk := Vector.replicate 8 0
    sp := 0
    pc := 0
    r15f := false
    sh := Vector.replicate 8 0
    isrActive := false
    retPc := 0
    dmem := []
    dmemEpoch := s.dmemEpoch + 1 }

/-- BTNC (R400). -/
def otherSpeed : Speed → Speed
  | .fast => .slow
  | .slow => .fast

/-- A short press of BTNL in Altair mode (R401). -/
def otherSel : MemSel → MemSel
  | .imem => .data
  | .data => .imem

/-- Enter Altair mode; which memory is selected then is a free value (R401; notes/assumptions/16.md). -/
def enterAltair (s : State) : State :=
  (s.withAltair { s.altair with
    on := true, sel := if Config.altairEntryData s.draws then .data else .imem, shown := none }).bump

/-- The word of the selected memory at an address, and the state after the access (R175, R401). An IMEM address at or above
`IMEM_WORDS` reads as a free value (notes/assumptions/16.md); an I/O address is a device access (23.md). -/
def panelRead (s : State) (sel : MemSel) (a : Word16) : Word16 × State :=
  match sel with
  | .imem =>
    match ifetch s a with
    | some w => (w, s)
    | none => (Config.unmappedRead s.draws a, s.bump)
  | .data => memRead s a

/-- The selected memory with `v` at an address (R175, R401); no effect on IMEM at or above `IMEM_WORDS`. -/
def panelWrite (s : State) (sel : MemSel) (a v : Word16) : State :=
  match sel with
  | .imem => if a.toNat < s.cfg.imemWords then s.withImem (memInsert s.imem a.toNat v) else s
  | .data => memWrite s a v

/-- BTNU: the address becomes the switches, and the word there is shown (R401). -/
def examine (s : State) : State :=
  let r := panelRead s s.altair.sel s.switches
  r.2.withAltair { s.altair with addr := s.switches, shown := some r.1 }

/-- BTND: the switches go to the word at the address, which then increments (R401). -/
def deposit (s : State) : State :=
  (panelWrite s s.altair.sel s.altair.addr s.switches).withAltair
    { s.altair with addr := s.altair.addr + 1, shown := none }

/-- One action of the person at the board (R401, R403). Examine, Deposit and Exit do nothing outside Altair mode. -/
def hostAction (a : HostAction) (s : State) : State :=
  match a with
  | .btnr => resetEvent s
  | .btnc => s.withSpeed (otherSpeed s.speed)
  | .btnlShort =>
    if s.altair.on then s.withAltair { s.altair with sel := otherSel s.altair.sel, shown := none }
    else enterAltair s
  | .btnlLong => if s.altair.on then s.withAltair { s.altair with on := false } else s
  | .btnu => if s.altair.on then examine s else s
  | .btnd => if s.altair.on then deposit s else s
  | .setSwitches v => s.withSwitches v

/-- What the 7-segment display shows: the digits, and the points, `none` where the spec does not say (R402). -/
structure Display where
  digits : Word16
  dp0 : Option Bool
  dp1 : Option Bool
  dp2 : Option Bool
  dp3 : Option Bool
deriving DecidableEq, Repr

/-- The display (R402). DP0 shows a pipeline event, which is no state of the model (R134; notes/assumptions/22.md). -/
def display (s : State) : Display :=
  if s.altair.on then
    { digits := s.altair.addr, dp0 := none, dp1 := none,
      dp2 := some (s.altair.sel == .data), dp3 := some (s.altair.sel == .imem) }
  else { digits := s.pc, dp0 := none, dp1 := some s.isrActive, dp2 := none, dp3 := none }

/-- What the LEDs show: in Altair mode the word at the current address (R401), a device's word only when Examine has read
it; otherwise the word last written to LEDS (R344). `none` where the spec does not say (notes/assumptions/22.md). -/
def leds (s : State) : Option Word16 :=
  if s.altair.on then
    match s.altair.sel with
    | .imem => (ifetch s s.altair.addr).or s.altair.shown
    | .data => if dataRegion s.cfg s.altair.addr = .ram then some (ramWord s s.altair.addr) else s.altair.shown
  else lastWritten 0xFFFF s.events

end Sys2Proof.Machine
end

