-- ==== Sys2Proof/Machine/Cpu.lean ====
section
/-! DEFINITION. One step of the CPU, and one step of the whole machine by the environment's schedule
(spec/00_scope.md R112, spec/60_exceptions.md R310, spec/70_reset_and_hazards.md R401, R403). -/

namespace Sys2Proof.Machine

/-- Fetch, decode and execute the instruction at `pc` (R112). -/
def fetchExec (s : State) : Host.Outcome State Fault Refusal :=
  match ifetch s s.pc with
  | some w => exec (decode w) s
  | none => .fault .ifetchOutOfRange

/-- The CPU's turn with the request lines at these levels: nothing while Altair mode is on (R401;
notes/assumptions/21.md), else an interrupt entry or one instruction (R310). -/
def cpuStep (irq1 irq2 : Bool) (s : State) : Host.Outcome State Fault Refusal :=
  if s.altair.on then .next s
  else match irqTaken s irq1 irq2 with
    | some k => .next (takeInterrupt k s)
    | none => fetchExec s

/-- The next entry of the schedule happens; past its end the CPU runs with no request (R305, R403;
notes/assumptions/14.md). -/
def machineStep (s : State) : Host.Outcome State Fault Refusal :=
  match s.env with
  | [] => cpuStep false false s
  | .cpu irq1 irq2 :: rest => cpuStep irq1 irq2 (s.withEnv rest)
  | .host a :: rest => .next (hostAction a (s.withEnv rest))

/-- The parameters with an instruction memory that holds the address `a`. -/
def paramsHolding (p : Params) (a : Word16) : Params := { p with imemWords := max p.imemWords (a.toNat + 1) }

/-- The word `w` at the address the next fetch uses, and the CPU's turn, running, with no request pending. -/
def placeFetchWord (s : State) (w : Word16) : State :=
  { s with
    cfg := paramsHolding s.cfg s.pc
    imem := memInsert s.imem s.pc.toNat w
    altair := { s.altair with on := false }
    env := [] }

end Sys2Proof.Machine
end

