-- ==== Sys2Proof/Safety.lean ====
section
/-! DEFINITION. The words that claims about the machine are stated in: the positions of spec/10_state.md R138, what a
commit leaves by R137 written as a relation between two states, what stays as it was, and the invariant. -/

namespace Sys2Proof.Machine

/-- The number of a register, 0 to 15 (R121). -/
def regNumber : Reg → Nat
  | .lo i => i.val
  | .hi i => 8 + i.val
  | .r13 => 13
  | .r14 => 14
  | .r15 => 15

/-- R0 to R12, plain storage (R122, R123). -/
def isPlain : Reg → Bool
  | .lo _ | .hi _ => true
  | .r13 | .r14 | .r15 => false

/-! ### The table of R138 -/

/-- The word 0x9F00 is being executed as IRET: the one word that does not commit by R137 (R137, R315). -/
def leavesIsr (i : Instr) (s : State) : Bool := i == .iret && s.isrActive

/-- Whether the condition of a CAIZ or CAIF holds (spec/46_conditional.md R276, R277). -/
def condHolds (i : Instr) (s : State) : Bool :=
  match i with
  | .caiz _ rs1 _ => zeroCond s.cfg.zeroTestWidth (srcVal s rs1)
  | .caif _ rs1 _ => flagOf (srcVal s rs1)
  | _ => false

/-- The read positions, column "S" of R138; SUI and SHR by their parameters (R241, R252). -/
def readPositions (i : Instr) (s : State) : List Reg :=
  match i with
  | .and _ rs1 rs2 | .nand _ rs1 rs2 | .or _ rs1 rs2 | .xor _ rs1 rs2 | .add _ rs1 rs2 | .sub _ rs1 rs2
  | .shl _ rs1 rs2 | .bitw _ rs1 rs2 | .load _ rs1 rs2 => [rs1, rs2]
  | .shr rd rs1 rs2 => shrReads s.cfg.shrFlagSource rd rs1 rs2
  | .ali rd _ => [rd]
  | .sui rd _ => suiReads s.cfg.suiLow rd
  | .addi _ rs1 _ => [rs1]
  | .store rd rs1 rs2 => [rd, rs1, rs2]
  | .caiz rd rs1 _ | .caif rd rs1 _ => if condHolds i s then [rs1, rd] else [rs1]
  | .nop => [.r0, .r0]
  | .iret => suiReads s.cfg.suiLow .r15

/-- The decrement positions, column "Dc" of R138. -/
def decPositions (i : Instr) : List Reg :=
  match i with
  | .and _ rs1 rs2 | .nand _ rs1 rs2 | .or _ rs1 rs2 | .xor _ rs1 rs2 | .add _ rs1 rs2 | .sub _ rs1 rs2
  | .shr _ rs1 rs2 | .shl _ rs1 rs2 | .bitw _ rs1 rs2 | .load _ rs1 rs2 => [rs1, rs2]
  | .ali _ _ | .sui _ _ | .iret => []
  | .addi _ rs1 _ | .caiz _ rs1 _ | .caif _ rs1 _ => [rs1]
  | .store rd rs1 rs2 => [rd, rs1, rs2]
  | .nop => [.r0, .r0]

/-- The destination, column "W" of R138. -/
def destReg (i : Instr) (s : State) : Option Reg :=
  match i with
  | .and rd _ _ | .nand rd _ _ | .or rd _ _ | .xor rd _ _ | .add rd _ _ | .sub rd _ _ | .shr rd _ _ | .shl rd _ _
  | .bitw rd _ _ | .load rd _ _ | .ali rd _ | .sui rd _ | .addi rd _ _ => some rd
  | .store _ _ _ => none
  | .caiz rd _ _ | .caif rd _ _ => if condHolds i s then some rd else none
  | .nop => some .r0
  | .iret => some .r15

/-- The state after the one data access of an instruction: LOAD reads, STORE writes, no other touches memory (R168). -/
def accessed (i : Instr) (s : State) : State :=
  match i with
  | .load _ rs1 rs2 => (memRead s (effAddr s rs1 rs2)).2
  | .store rd rs1 rs2 => memWrite s (effAddr s rs1 rs2) (dataOf (srcVal s rd))
  | .and _ _ _ | .nand _ _ _ | .or _ _ _ | .xor _ _ _ | .add _ _ _ | .sub _ _ _ | .shr _ _ _ | .shl _ _ _
  | .bitw _ _ _ | .ali _ _ | .sui _ _ | .addi _ _ _ | .caiz _ _ _ | .caif _ _ _ | .nop | .iret => s

/-! ### What a commit leaves (R137) -/

/-- The stack after an instruction, line by line of R137; nothing is said where the spec leaves the stack open. -/
def StackCommit (reads : List Reg) (dest : Dest) (s t : State) : Prop :=
  match decide (.r14 ∈ reads), destAt dest .r14 with
  | true, some v => s.sp ≠ 0 → t.sp = s.sp ∧
      ∀ j : Fin 8, t.stk[j.val] = if j.val + 1 = s.sp.val then v else s.stk[j.val]
  | true, none => s.sp ≠ 0 → t.sp.val + 1 = s.sp.val ∧ t.stk = s.stk
  | false, some v => s.sp ≠ 8 → t.sp.val = s.sp.val + 1 ∧
      ∀ j : Fin 8, t.stk[j.val] = if j.val = s.sp.val then v else s.stk[j.val]
  | false, none => t.sp = s.sp ∧ t.stk = s.stk

/-- R0 to R15 after an instruction, line by line of R137: the destination holds the value written, R13 is decremented if it
stands in a decrement position and is not written, every other register is unchanged, and `pc` is the branch target or the
next word. -/
def RegistersCommit (reads decs : List Reg) (dest : Dest) (s t : State) : Prop :=
  (∀ i : Fin 8, t.lo[i.val] = (destAt dest (.lo i)).getD s.lo[i.val]) ∧
  (∀ i : Fin 5, t.hi[i.val] = (destAt dest (.hi i)).getD s.hi[i.val]) ∧
  t.r13 = (destAt dest .r13).getD
    (if .r13 ∈ decs then mkVal (flagOf s.r13) (dataOf s.r13 - 1) else s.r13) ∧
  t.pc = ((destAt dest .r15).map dataOf).getD (s.pc + 1) ∧
  t.r15f = ((destAt dest .r15).map flagOf).getD s.r15f ∧
  StackCommit reads dest s t

/-- Every word of both memories reads as before, and no device has been accessed. -/
def MemorySame (s t : State) : Prop :=
  (∀ a, imemWord t a = imemWord s a) ∧ (∀ a, ramWord t a = ramWord s a) ∧
  t.events = s.events ∧ t.devIn = s.devIn

/-- The interrupt bookkeeping, the parameters, the front panel and the environment are as before. -/
def SystemSame (s t : State) : Prop :=
  t.sh = s.sh ∧ t.isrActive = s.isrActive ∧ t.retPc = s.retPc ∧ t.cfg = s.cfg ∧ t.speed = s.speed ∧
  t.altair = s.altair ∧ t.switches = s.switches ∧ t.env = s.env

/-- The whole effect of an instruction that touches no memory: it writes `dest` and leaves the rest as R137 says. -/
def CommitsOnly (reads decs : List Reg) (dest : Dest) (s t : State) : Prop :=
  RegistersCommit reads decs dest s t ∧ MemorySame s t ∧ SystemSame s t

/-! ### Invariant and safe runs -/

/-- The address of a device event. -/
def eventAddr : DevEvent → Word16
  | .read a _ => a
  | .write a _ => a

/-- What every step keeps: the sizes are as R107 allows, both memories are in canonical form and list only words that exist,
and every recorded event is of the I/O region (R162, R340). -/
def StateInv (s : State) : Prop :=
  paramsOk s.cfg = true ∧
  s.imem.wf ∧ (∀ c ∈ s.imem, c.1 < s.cfg.imemWords) ∧
  s.dmem.wf ∧ (∀ c ∈ s.dmem, c.1 < s.cfg.dmemWords) ∧
  (∀ e ∈ s.events, 0x8000 ≤ (eventAddr e).toNat)

/-- The next entry of the schedule gives the CPU its turn with the lines at these levels, and the rest of the schedule
is `rest`. -/
def cpuTurn (s : State) (irq1 irq2 : Bool) (rest : List EnvEvent) : Prop :=
  s.env = .cpu irq1 irq2 :: rest ∨ (s.env = [] ∧ irq1 = false ∧ irq2 = false ∧ rest = [])

/-- A run of `n` steps from `s` does not stop: it meets no fetch outside IMEM. -/
def SafeFor (n : Nat) (s : State) : Prop := ∃ t, Sys2Proof.core.run n s = .next t

end Sys2Proof.Machine
end

