-- ==== Sys2Proof/Certificates/Slice0/Obligations.lean ====
section
/-! DEFINITION. The statements about the machine. Each cites the rules it formalises in OBLIGATIONS.json. -/

open Sys2Proof Sys2Proof.Machine

/-! ### Encoding -/

/-- Every instruction that is the decoding of some word is read back from its word, every operand at every value
(R196, R197, R202). -/
def Obligations.DecodeEncodeRoundTrip : Prop :=
  ∀ i : Instr, i.wellFormed = true → decode (encode i) = i

/-- Every one of the 65536 words is an instruction, and encoding that gives the word back: no bit is dropped (R192, R198). -/
def Obligations.EveryWordIsAnInstruction : Prop :=
  ∀ w : Word16, (decode w).wellFormed = true ∧ encode (decode w) = w

/-- The word of an instruction by R202: opcode << 12 | rd << 8 | rs1 << 4 | rs2, and so for the two immediate formats. -/
def Obligations.EncodingFollowsFieldLayout : Prop :=
  ∀ (rd rs1 rs2 : Reg) (imm4 : BitVec 4) (imm8 : BitVec 8),
    let r (op : Nat) : Nat :=
      op <<< 12 ||| regNumber rd <<< 8 ||| regNumber rs1 <<< 4 ||| regNumber rs2
    let i4 (op : Nat) : Nat :=
      op <<< 12 ||| regNumber rd <<< 8 ||| regNumber rs1 <<< 4 ||| imm4.toNat
    let i8 (op : Nat) : Nat := op <<< 12 ||| regNumber rd <<< 8 ||| imm8.toNat
    (encode (.and rd rs1 rs2)).toNat = r 0x0 ∧ (encode (.nand rd rs1 rs2)).toNat = r 0x1 ∧
    (encode (.or rd rs1 rs2)).toNat = r 0x2 ∧ (encode (.xor rd rs1 rs2)).toNat = r 0x3 ∧
    (encode (.add rd rs1 rs2)).toNat = r 0x4 ∧ (encode (.sub rd rs1 rs2)).toNat = r 0x5 ∧
    (encode (.shr rd rs1 rs2)).toNat = r 0x6 ∧ (encode (.shl rd rs1 rs2)).toNat = r 0x7 ∧
    (encode (.ali rd imm8)).toNat = i8 0x8 ∧ (encode (.sui rd imm8)).toNat = i8 0x9 ∧
    (encode (.addi rd rs1 imm4)).toNat = i4 0xA ∧ (encode (.bitw rd rs1 rs2)).toNat = r 0xB ∧
    (encode (.load rd rs1 rs2)).toNat = r 0xC ∧ (encode (.store rd rs1 rs2)).toNat = r 0xD ∧
    (encode (.caiz rd rs1 imm4)).toNat = i4 0xE ∧ (encode (.caif rd rs1 imm4)).toNat = i4 0xF ∧
    encode .nop = encode (.and .r0 .r0 .r0) ∧ encode .nop = 0x0000#16 ∧
    encode .iret = encode (.sui .r15 0x00#8) ∧ encode .iret = 0x9F00#16

/-- A few words written out from R191 and R196 decode to what spec/95_test_vectors.md section 2.1 says. The last two are the
pseudo-operations' words (R200); that the decoder, which sees no state, answers `nop` and `iret` for them is the model's
reading (notes/assumptions/15.md). -/
def Obligations.SampleWordsDecode : Prop :=
  decode 0x0312#16 = .and .r3 .r1 .r2 ∧ decode 0x5312#16 = .sub .r3 .r1 .r2 ∧
  decode 0x8134#16 = .ali .r1 0x34#8 ∧ decode 0x9F01#16 = .sui .r15 0x01#8 ∧
  decode 0xA11F#16 = .addi .r1 .r1 0xF#4 ∧ decode 0xD230#16 = .store .r2 .r3 .r0 ∧
  decode 0xFF3C#16 = .caif .r15 .r3 0xC#4 ∧ decode 0x7FFF#16 = .shl .r15 .r15 .r15 ∧
  decode 0x0000#16 = .nop ∧ decode 0x9F00#16 = .iret

/-! ### Operands and the commit -/

/-- What a source operand reads as, line by line of R135; for R14 where the stack is not empty. A position that is read and
not decremented reads the same. With `R13_READ = after` (R107) R13 reads decremented in every position of an instruction that
has it in a decrement position, and as stored otherwise (the model's choice, notes/assumptions/6.md). -/
def Obligations.OperandReadValues : Prop :=
  ∀ s : State,
    (∀ i : Fin 8, srcVal s (.lo i) = s.lo[i.val]) ∧
    (∀ i : Fin 5, srcVal s (.hi i) = s.hi[i.val]) ∧
    (s.cfg.r13Read = .before → srcVal s .r13 = s.r13) ∧
    (s.cfg.r13Read = .after → srcVal s .r13 = mkVal (flagOf s.r13) (dataOf s.r13 - 1)) ∧
    (∀ j : Fin 8, s.sp.val = j.val + 1 → srcVal s .r14 = s.stk[j.val]) ∧
    srcVal s .r15 = mkVal s.r15f (s.pc + s.cfg.pcReadOffset) ∧
    (∀ r, r ≠ .r13 → destVal s r = srcVal s r) ∧ destVal s .r13 = s.r13 ∧
    (∀ decs r, r ∈ decs → rdVal decs s r = srcVal s r) ∧ (∀ decs r, r ∉ decs → rdVal decs s r = destVal s r)

/-- Every instruction but IRET inside a service routine commits by R137 with the positions of R138: it goes on to a next
state, its destination alone is written, R13 is decremented at most once, R14 is pushed, popped or modified, `pc` is the
target or the next word, both memories and the devices are as its one data access leaves them (R168), and the interrupt
bookkeeping and the front panel stay.
That it goes on with the R14 stack empty or full (notes/assumptions/7.md, 8.md), with an amount of 16 and more while
`SHIFT_AMOUNT_MODE` is unset (9.md) and where nothing is behind a data address (11.md), is the model's choice; what a device
read takes from the queue, and SWITCHES from the panel, are 12.md and 13.md. -/
def Obligations.EveryInstructionCommits : Prop :=
  ∀ (i : Instr) (s : State), leavesIsr i s = false →
    ∃ (t : State) (dest : Dest), exec i s = .next t ∧ dest.map Prod.fst = destReg i s ∧
      RegistersCommit (readPositions i s) (decPositions i) dest s t ∧ MemorySame (accessed i s) t ∧
      SystemSame s t

/-- R13 loses one when it is used as a source and not written, however many fields name it and whether or not a condition
holds; otherwise, unless it is written, it stays (R139).
That it goes on with the R14 stack empty or full (notes/assumptions/7.md, 8.md), with an amount of 16 and more while
`SHIFT_AMOUNT_MODE` is unset (9.md) and where nothing is behind a data address (11.md), is the model's choice. -/
def Obligations.R13DecrementsOnSourceUse : Prop :=
  ∀ (i : Instr) (s : State), destReg i s ≠ some .r13 →
    ∃ t, exec i s = .next t ∧
      (.r13 ∈ decPositions i → dataOf t.r13 = dataOf s.r13 - 1 ∧ flagOf t.r13 = flagOf s.r13) ∧
      (.r13 ∉ decPositions i → t.r13 = s.r13)

/-- An instruction that does not write R15 leaves `pc` at the next word, modulo 2^16, and R15's flag as it was
(R128, R141).
That it goes on with the R14 stack empty or full (notes/assumptions/7.md, 8.md), with an amount of 16 and more while
`SHIFT_AMOUNT_MODE` is unset (9.md) and where nothing is behind a data address (11.md), is the model's choice. -/
def Obligations.PcAdvancesUnlessR15Written : Prop :=
  ∀ (i : Instr) (s : State), leavesIsr i s = false → destReg i s ≠ some .r15 →
    ∃ t, exec i s = .next t ∧ t.pc.toNat = (s.pc.toNat + 1) % 65536 ∧ t.r15f = s.r15f

/-- Save a register of R0 to R12 on the stack and restore it (R140, R290): the push and the pop give the value back, flag
included, and leave the stack as it was. -/
def Obligations.PushThenPopRestores : Prop :=
  ∀ (s : State) (rn rm : Reg), isPlain rn = true → isPlain rm = true → s.sp ≠ 8 → s.cfg.logicWidth = .w17 →
    ∃ t u, exec (.or .r14 rn rn) s = .next t ∧ exec (.or rm .r14 .r14) t = .next u ∧
      t.sp.val = s.sp.val + 1 ∧ u.sp = s.sp ∧ destVal u rm = destVal s rn ∧
      (∀ j : Fin 8, j.val < s.sp.val → u.stk[j.val] = s.stk[j.val]) ∧ u.pc = s.pc + 2

/-- Call and return by the idioms of R290, the routine's address in any of R0 to R12: the return comes back to
the word after the jump, with the stack as it was. -/
def Obligations.CallThenReturnComesBack : Prop :=
  ∀ (s : State) (rt : Reg), isPlain rt = true → s.sp ≠ 8 → s.cfg.pcReadOffset = 0 →
    ∃ t u v, exec (.addi .r14 .r15 2#4) s = .next t ∧ exec (.addi .r15 rt 0#4) t = .next u ∧
      exec (.addi .r15 .r14 0#4) u = .next v ∧
      u.pc = dataOf (destVal s rt) ∧ v.pc = s.pc + 2 ∧ v.sp = s.sp ∧
      (∀ j : Fin 8, j.val < s.sp.val → v.stk[j.val] = s.stk[j.val])

/-- The stopping idiom `ADDI R15, R15, 0` jumps to itself and changes nothing but R15's flag (R253, R291). -/
def Obligations.JumpToSelfStays : Prop :=
  ∀ s : State, s.cfg.pcReadOffset = 0 → exec (.addi .r15 .r15 0#4) s = .next { s with r15f := false }

/-! ### Logic -/

/-- AND, NAND, OR, XOR write the bitwise result of the data, and for the flag the same operation on the two source flags, or
0 with `LOGIC_WIDTH = 16` (R220 to R224).
That they go on with the R14 stack empty or full, the rest by R137, is the model's choice (notes/assumptions/7.md,
8.md). -/
def Obligations.LogicInstructionsWriteBitwiseResult : Prop :=
  ∀ (s : State) (rd rs1 rs2 : Reg),
    let a := srcVal s rs1
    let b := srcVal s rs2
    let flag (f : Bool) : Bool := (s.cfg.logicWidth == .w17) && f
    (∃ t v, exec (.and rd rs1 rs2) s = .next t ∧ CommitsOnly [rs1, rs2] [rs1, rs2] (some (rd, v)) s t ∧
      dataOf v = dataOf a &&& dataOf b ∧ flagOf v = flag (flagOf a && flagOf b)) ∧
    (∃ t v, exec (.nand rd rs1 rs2) s = .next t ∧ CommitsOnly [rs1, rs2] [rs1, rs2] (some (rd, v)) s t ∧
      dataOf v = ~~~(dataOf a &&& dataOf b) ∧ flagOf v = flag (!(flagOf a && flagOf b))) ∧
    (∃ t v, exec (.or rd rs1 rs2) s = .next t ∧ CommitsOnly [rs1, rs2] [rs1, rs2] (some (rd, v)) s t ∧
      dataOf v = dataOf a ||| dataOf b ∧ flagOf v = flag (flagOf a || flagOf b)) ∧
    (∃ t v, exec (.xor rd rs1 rs2) s = .next t ∧ CommitsOnly [rs1, rs2] [rs1, rs2] (some (rd, v)) s t ∧
      dataOf v = dataOf a ^^^ dataOf b ∧ flagOf v = flag (flagOf a ^^ flagOf b))

/-- NOP runs as `AND R0, R0, R0` and, with the 17-bit logic of the default, changes nothing but `pc` (R285). -/
def Obligations.NopChangesOnlyPc : Prop :=
  ∀ s : State, exec .nop s = exec (.and .r0 .r0 .r0) s ∧
    (s.cfg.logicWidth = .w17 → exec .nop s = .next { s with pc := s.pc + 1 })

/-! ### Arithmetic, shifts, immediates -/

/-- ADD writes the wrapped sum of the data with the carry as flag (R230, R231).
That it goes on with the R14 stack empty or full, the rest by R137, is the model's choice (notes/assumptions/7.md,
8.md). -/
def Obligations.AddWritesSumAndCarry : Prop :=
  ∀ (s : State) (rd rs1 rs2 : Reg),
    let a := (dataOf (srcVal s rs1)).toNat
    let b := (dataOf (srcVal s rs2)).toNat
    ∃ t v, exec (.add rd rs1 rs2) s = .next t ∧ CommitsOnly [rs1, rs2] [rs1, rs2] (some (rd, v)) s t ∧
      (dataOf v).toNat = (a + b) % 65536 ∧ flagOf v = decide (65536 ≤ a + b)

/-- SUB writes rs1 minus rs2, wrapped, with the borrow as flag (R230, R232).
That it goes on with the R14 stack empty or full, the rest by R137, is the model's choice (notes/assumptions/7.md,
8.md). -/
def Obligations.SubWritesDifferenceAndBorrow : Prop :=
  ∀ (s : State) (rd rs1 rs2 : Reg),
    let a := (dataOf (srcVal s rs1)).toNat
    let b := (dataOf (srcVal s rs2)).toNat
    ∃ t v, exec (.sub rd rs1 rs2) s = .next t ∧ CommitsOnly [rs1, rs2] [rs1, rs2] (some (rd, v)) s t ∧
      (dataOf v).toNat = (a + 65536 - b) % 65536 ∧ flagOf v = decide (a < b)

/-- BITW writes 0 when the data have no common set bit, else one more than the index of the highest, with flag 0
(R260, R261).
That it goes on with the R14 stack empty or full, the rest by R137, is the model's choice (notes/assumptions/7.md,
8.md). -/
def Obligations.BitwWritesHighestCommonBit : Prop :=
  ∀ (s : State) (rd rs1 rs2 : Reg),
    let m := dataOf (srcVal s rs1) &&& dataOf (srcVal s rs2)
    ∃ t v, exec (.bitw rd rs1 rs2) s = .next t ∧ CommitsOnly [rs1, rs2] [rs1, rs2] (some (rd, v)) s t ∧
      flagOf v = false ∧ (m = 0 → dataOf v = 0) ∧
      (∀ k, m.getLsbD k = true → (∀ j, k < j → m.getLsbD j = false) → (dataOf v).toNat = k + 1)

/-- The shift amount by R240: the data of rs2 below 16, and by `SHIFT_AMOUNT_MODE` from 16 on. Of the amount while the mode is
unset, a free value (notes/assumptions/9.md), nothing is said. -/
def Obligations.ShiftAmountByMode : Prop :=
  ∀ b : RegVal,
    let d := (dataOf b).toNat
    (d ≤ 15 → ∀ mode, shiftAmount mode b = d) ∧
    (16 ≤ d → shiftAmount .low4 b = ((dataOf b).extractLsb' 0 4).toNat ∧
      shiftAmount .low5 b = ((dataOf b).extractLsb' 0 5).toNat ∧ shiftAmount .full b = d)

/-- SHR, bit by bit of R241: bit i is bit i+n of the data while that exists, then the fill. The fill is 0 when the flag that
`SHR_FLAG_SOURCE` consults is 0, and else data bit 15, or with `SHR_FILL = flag` bit 16; the flag stays. That rd is a read
position when its flag is consulted is the model's choice (notes/assumptions/6.md), and so is going on with a free amount for
rs2 data of 16 and more while the mode is unset (notes/assumptions/9.md).
That it goes on with the R14 stack empty or full, the rest by R137, is the model's choice (notes/assumptions/7.md,
8.md). -/
def Obligations.ShrShiftsByFlag : Prop :=
  ∀ (s : State) (rd rs1 rs2 : Reg),
    let a := srcVal s rs1
    let n := shiftAmount s.cfg.shiftAmountMode (srcVal s rs2)
    let consulted : Bool := match s.cfg.shrFlagSource with
      | .rs1 => flagOf a
      | .rs2 => flagOf (srcVal s rs2)
      | .rd => flagOf (rdVal [rs1, rs2] s rd)
    let fill : Bool := consulted && match s.cfg.shrFill with
      | .bit15 => (dataOf a).getLsbD 15
      | .flag => flagOf a
    ∃ t v, exec (.shr rd rs1 rs2) s = .next t ∧
      CommitsOnly (if s.cfg.shrFlagSource = .rd then [rs1, rs2, rd] else [rs1, rs2]) [rs1, rs2] (some (rd, v)) s t ∧
      flagOf v = flagOf a ∧
      ∀ i, i < 16 → (dataOf v).getLsbD i = if i + n ≤ 15 then (dataOf a).getLsbD (i + n) else fill

/-- SHR under every setting of `SHR_FLAG_SOURCE` goes on to a next state, keeps the flag of rs1, and shifts in 0 when the
flag consulted is 0 (R241). The position of rd under `SHR_FLAG_SOURCE = rd` and the free amount for rs2 data of 16 and more
while the mode is unset are the model's choices (notes/assumptions/6.md, 9.md).
That it goes on with the R14 stack empty or full, the rest by R137, is the model's choice (notes/assumptions/7.md,
8.md). -/
def Obligations.ShrLogicalWhenFlagClear : Prop :=
  ∀ (s : State) (rd rs1 rs2 : Reg), shrMode s rd rs1 rs2 = false →
    let a := srcVal s rs1
    let n := shiftAmount s.cfg.shiftAmountMode (srcVal s rs2)
    ∃ t v, exec (.shr rd rs1 rs2) s = .next t ∧
      CommitsOnly (shrReads s.cfg.shrFlagSource rd rs1 rs2) [rs1, rs2] (some (rd, v)) s t ∧
      flagOf v = flagOf a ∧ (dataOf v).toNat = (dataOf a).toNat / 2 ^ n

/-- SHL shifts the 17-bit value: the flag is the old flag for amount 0, the data bit 16-n for amounts 1 to 16, and 0 above
(R242). That the amount is a free value for rs2 data of 16 and more while the mode is unset is the model's choice
(notes/assumptions/9.md).
That it goes on with the R14 stack empty or full, the rest by R137, is the model's choice (notes/assumptions/7.md,
8.md). -/
def Obligations.ShlShiftsSeventeenBits : Prop :=
  ∀ (s : State) (rd rs1 rs2 : Reg),
    let a := srcVal s rs1
    let n := shiftAmount s.cfg.shiftAmountMode (srcVal s rs2)
    ∃ t v, exec (.shl rd rs1 rs2) s = .next t ∧ CommitsOnly [rs1, rs2] [rs1, rs2] (some (rd, v)) s t ∧
      (dataOf v).toNat = ((dataOf a).toNat * 2 ^ n) % 65536 ∧
      (n = 0 → flagOf v = flagOf a) ∧
      (1 ≤ n → n ≤ 16 → flagOf v = (dataOf a).getLsbD (16 - n)) ∧
      (17 ≤ n → flagOf v = false)

/-- ALI adds imm8 to the whole data of rd, with the carry as flag (R251); that with `IMM8_EXT = sign` (R107) the addend is
sign-extended to 17 bits and the flag is bit 16 of that sum is the model's choice (notes/assumptions/6.md).
That it goes on with the R14 stack empty or full, the rest by R137, is the model's choice (notes/assumptions/7.md,
8.md). -/
def Obligations.AliAddsToRd : Prop :=
  ∀ (s : State) (rd : Reg) (imm8 : BitVec 8),
    let d := (dataOf (destVal s rd)).toNat
    ∃ t v, exec (.ali rd imm8) s = .next t ∧ CommitsOnly [rd] [] (some (rd, v)) s t ∧
      (s.cfg.imm8Ext = .zero →
        (dataOf v).toNat = (d + imm8.toNat) % 65536 ∧ flagOf v = decide (65536 ≤ d + imm8.toNat)) ∧
      (s.cfg.imm8Ext = .sign →
        v.toNat = (d + imm8.toNat + if imm8.toNat < 128 then 0 else 131072 - 256) % 131072)

/-- SUI writes imm8 into data bits 15:8, with flag 0; the low byte is cleared and rd not read, or with `SUI_LOW = keep` rd is
read and its low byte kept (R252).
That it goes on with the R14 stack empty or full, the rest by R137, is the model's choice (notes/assumptions/7.md,
8.md). -/
def Obligations.SuiSetsUpperByte : Prop :=
  ∀ (s : State) (rd : Reg) (imm8 : BitVec 8),
    (s.cfg.suiLow = .clear → ∃ t v, exec (.sui rd imm8) s = .next t ∧ CommitsOnly [] [] (some (rd, v)) s t ∧
      flagOf v = false ∧ (dataOf v).toNat = imm8.toNat * 256) ∧
    (s.cfg.suiLow = .keep → ∃ t v, exec (.sui rd imm8) s = .next t ∧ CommitsOnly [rd] [] (some (rd, v)) s t ∧
      flagOf v = false ∧
      (dataOf v).toNat = imm8.toNat * 256 + (dataOf (destVal s rd)).toNat % 256)

/-- ADDI adds the sign-extended imm4: for 0 to 7 the flag is the carry, for -8 to -1 it is the borrow; with `IMM4_EXT = zero`
the addend is 0 to 15 and the flag the carry (R253).
That it goes on with the R14 stack empty or full, the rest by R137, is the model's choice (notes/assumptions/7.md,
8.md). -/
def Obligations.AddiAddsImmediate : Prop :=
  ∀ (s : State) (rd rs1 : Reg) (imm4 : BitVec 4),
    let a := (dataOf (srcVal s rs1)).toNat
    let k := imm4.toNat
    ∃ t v, exec (.addi rd rs1 imm4) s = .next t ∧ CommitsOnly [rs1] [rs1] (some (rd, v)) s t ∧
      ((s.cfg.imm4Ext = .zero ∨ k < 8) →
        (dataOf v).toNat = (a + k) % 65536 ∧ flagOf v = decide (65536 ≤ a + k)) ∧
      (s.cfg.imm4Ext = .sign ∧ 8 ≤ k →
        (dataOf v).toNat = (a + 65536 - (16 - k)) % 65536 ∧ flagOf v = decide (a < 16 - k))

/-- `SUI rd, hi` then `ALI rd, lo` loads the constant with the bytes hi and lo and flag 0, into every register but R15; into
R14 where the stack has room (R194, R290). -/
def Obligations.SuiThenAliLoadsConstant : Prop :=
  ∀ (s : State) (rd : Reg) (hi lo : BitVec 8), rd ≠ .r15 → (rd = .r14 → s.sp ≠ 8) →
    s.cfg.suiLow = .clear → s.cfg.imm8Ext = .zero →
    ∃ t u, exec (.sui rd hi) s = .next t ∧ exec (.ali rd lo) t = .next u ∧
      destVal u rd = mkVal false (hi ++ lo) ∧ u.pc = s.pc + 2

/-! ### Conditional adds -/

/-- CAIZ: when the data of rs1 are zero (with `ZERO_TEST_WIDTH = 17` also its flag), rd gets the 17-bit sum of its data and the
sign-extended imm4 (zero-extended with `IMM4_EXT = zero`); otherwise nothing is written; rs1 is a source either way
(R275, R276). What rd reads as when it is R13 is R135's (with `R13_READ = after`, notes/assumptions/6.md).
That it goes on with the R14 stack empty or full, the rest by R137, is the model's choice (notes/assumptions/7.md,
8.md). -/
def Obligations.CaizAddsWhenZero : Prop :=
  ∀ (s : State) (rd rs1 : Reg) (imm4 : BitVec 4),
    let c := srcVal s rs1
    let d := (dataOf (rdVal [rs1] s rd)).toNat
    let k := imm4.toNat
    let zero : Prop := dataOf c = 0 ∧ (s.cfg.zeroTestWidth = .w17 → flagOf c = false)
    (zero → ∃ t v, exec (.caiz rd rs1 imm4) s = .next t ∧ CommitsOnly [rs1, rd] [rs1] (some (rd, v)) s t ∧
      ((s.cfg.imm4Ext = .zero ∨ k < 8) →
        (dataOf v).toNat = (d + k) % 65536 ∧ flagOf v = decide (65536 ≤ d + k)) ∧
      (s.cfg.imm4Ext = .sign ∧ 8 ≤ k →
        (dataOf v).toNat = (d + 65536 - (16 - k)) % 65536 ∧ flagOf v = decide (d < 16 - k))) ∧
    (¬ zero → ∃ t, exec (.caiz rd rs1 imm4) s = .next t ∧ CommitsOnly [rs1] [rs1] none s t)

/-- CAIF: when the flag of rs1 is set, rd gets the 17-bit sum of its data and the sign-extended imm4 (zero-extended with
`IMM4_EXT = zero`); otherwise nothing is written; rs1 is a source either way (R275, R277). What rd reads as
when it is R13 is R135's (with `R13_READ = after`, notes/assumptions/6.md).
That it goes on with the R14 stack empty or full, the rest by R137, is the model's choice (notes/assumptions/7.md,
8.md). -/
def Obligations.CaifAddsWhenFlag : Prop :=
  ∀ (s : State) (rd rs1 : Reg) (imm4 : BitVec 4),
    let c := srcVal s rs1
    let d := (dataOf (rdVal [rs1] s rd)).toNat
    let k := imm4.toNat
    (flagOf c = true → ∃ t v, exec (.caif rd rs1 imm4) s = .next t ∧
      CommitsOnly [rs1, rd] [rs1] (some (rd, v)) s t ∧
      ((s.cfg.imm4Ext = .zero ∨ k < 8) →
        (dataOf v).toNat = (d + k) % 65536 ∧ flagOf v = decide (65536 ≤ d + k)) ∧
      (s.cfg.imm4Ext = .sign ∧ 8 ≤ k →
        (dataOf v).toNat = (d + 65536 - (16 - k)) % 65536 ∧ flagOf v = decide (d < 16 - k))) ∧
    (flagOf c = false → ∃ t, exec (.caif rd rs1 imm4) s = .next t ∧ CommitsOnly [rs1] [rs1] none s t)

/-! ### Memory and devices -/

/-- What stands at each data address: RAM, nothing, a listed register, or an I/O address without one (R162). -/
def Obligations.DataAddressMap : Prop :=
  ∀ (p : Params) (a : Word16), p.dmemWords ≤ 0x8000 →
    let n := a.toNat
    let listed : Prop := (0xFFB0 ≤ n ∧ n ≤ 0xFFB3) ∨ (0xFFC0 ≤ n ∧ n ≤ 0xFFC2) ∨ (0xFFD0 ≤ n ∧ n ≤ 0xFFD2) ∨
      (0xFFD5 ≤ n ∧ n ≤ 0xFFD7) ∨ (0xFFD9 ≤ n ∧ n ≤ 0xFFDF) ∨ (0xFFE0 ≤ n ∧ n ≤ 0xFFE4) ∨
      (0xFFFC ≤ n ∧ n ≤ 0xFFFF)
    (dataRegion p a = .ram ↔ n < p.dmemWords) ∧
    (dataRegion p a = .hole ↔ p.dmemWords ≤ n ∧ n < 0x8000) ∧
    ((∃ row, dataRegion p a = .device row ∧ row.addr = a) ↔ listed) ∧
    (dataRegion p a = .ioUnmapped ↔ 0x8000 ≤ n ∧ ¬ listed)

/-- LOAD from RAM writes the word at the sum of the two registers' data, wrapped, with flag 0, and changes no memory
(R265, R266).
That it goes on with the R14 stack empty or full, the rest by R137, is the model's choice (notes/assumptions/7.md,
8.md). -/
def Obligations.LoadReadsRam : Prop :=
  ∀ (s : State) (rd rs1 rs2 : Reg) (ea : Word16),
    ea.toNat = ((dataOf (srcVal s rs1)).toNat + (dataOf (srcVal s rs2)).toNat) % 65536 →
    ea.toNat < s.cfg.dmemWords → ea.toNat < 0x8000 →
    ∃ t, exec (.load rd rs1 rs2) s = .next t ∧
      CommitsOnly [rs1, rs2] [rs1, rs2] (some (rd, mkVal false (ramWord s ea))) s t

/-- LOAD from the I/O region writes the value that the access returned, with flag 0, and is recorded as one read event; the
switches' register returns the switches, any other listed one the environment's next answer; no memory changes, and the queue
of answers loses only the answer used (R266, R340, R343). The queue and the switches' word are the model's choices
(notes/assumptions/12.md, 13.md), and so is going on with a free value at an I/O address without a register
(notes/assumptions/11.md).
That it goes on with the R14 stack empty or full, the rest by R137, is the model's choice (notes/assumptions/7.md,
8.md). -/
def Obligations.LoadReadsDevice : Prop :=
  ∀ (s : State) (rd rs1 rs2 : Reg), 0x8000 ≤ (effAddr s rs1 rs2).toNat →
    ∃ t v, exec (.load rd rs1 rs2) s = .next t ∧
      RegistersCommit [rs1, rs2] [rs1, rs2] (some (rd, mkVal false v)) s t ∧
      t.events = s.events ++ [.read (effAddr s rs1 rs2) v] ∧
      (∀ a, imemWord t a = imemWord s a) ∧ (∀ a, ramWord t a = ramWord s a) ∧ SystemSame s t ∧
      (effAddr s rs1 rs2 = 0xFFFE#16 → v = s.switches ∧ t.devIn = s.devIn) ∧
      (dataRegion s.cfg (effAddr s rs1 rs2) = .ioUnmapped → t.devIn = s.devIn) ∧
      (s.devIn = [] → t.devIn = []) ∧
      (∀ row q w, dataRegion s.cfg (effAddr s rs1 rs2) = .device row → row.reg ≠ .switches →
        s.devIn = w :: q → v = w ∧ t.devIn = q)

/-- LOAD where nothing is writes some 16-bit value with flag 0 and changes nothing else: the choice of the model under
spec/93_implementation_defined.md U7 (notes/assumptions/11.md).
That it goes on with the R14 stack empty or full, the rest by R137, is the model's choice (notes/assumptions/7.md,
8.md). -/
def Obligations.LoadFromHoleGoesOn : Prop :=
  ∀ (s : State) (rd rs1 rs2 : Reg), dataRegion s.cfg (effAddr s rs1 rs2) = .hole →
    ∃ t v, exec (.load rd rs1 rs2) s = .next t ∧
      CommitsOnly [rs1, rs2] [rs1, rs2] (some (rd, mkVal false v)) s t

/-- STORE to RAM puts the data of rd, without its flag, at the sum of the two registers' data, wrapped; every other word of
both memories stays, no register is written, and R13 and R14 take their side effects (R265, R267).
That it goes on with the R14 stack empty or full, the rest by R137, is the model's choice (notes/assumptions/7.md,
8.md). -/
def Obligations.StoreWritesRam : Prop :=
  ∀ (s : State) (rd rs1 rs2 : Reg) (ea : Word16), s.dmem.wf →
    ea.toNat = ((dataOf (srcVal s rs1)).toNat + (dataOf (srcVal s rs2)).toNat) % 65536 →
    ea.toNat < s.cfg.dmemWords → ea.toNat < 0x8000 →
    ∃ t, exec (.store rd rs1 rs2) s = .next t ∧ RegistersCommit [rd, rs1, rs2] [rd, rs1, rs2] none s t ∧
      ramWord t ea = dataOf (srcVal s rd) ∧ (∀ a, a ≠ ea → ramWord t a = ramWord s a) ∧
      (∀ a, imemWord t a = imemWord s a) ∧ t.events = s.events ∧ t.devIn = s.devIn ∧ SystemSame s t

/-- STORE to the I/O region is recorded as one write event, with the data of rd, and changes no memory (R267, R340). Outside
Altair mode a STORE to LEDS sets what the LEDs show (R344), and any other leaves it. That a STORE to an I/O address without a
register goes on and is recorded is the model's choice (notes/assumptions/11.md).
That it goes on with the R14 stack empty or full, the rest by R137, is the model's choice (notes/assumptions/7.md,
8.md). -/
def Obligations.StoreToIoIsOneEvent : Prop :=
  ∀ (s : State) (rd rs1 rs2 : Reg), 0x8000 ≤ (effAddr s rs1 rs2).toNat →
    ∃ t, exec (.store rd rs1 rs2) s = .next t ∧ RegistersCommit [rd, rs1, rs2] [rd, rs1, rs2] none s t ∧
      t.events = s.events ++ [.write (effAddr s rs1 rs2) (dataOf (srcVal s rd))] ∧
      (∀ a, imemWord t a = imemWord s a) ∧ (∀ a, ramWord t a = ramWord s a) ∧
      t.devIn = s.devIn ∧ SystemSame s t ∧
      (s.altair.on = false →
        leds t = if effAddr s rs1 rs2 = 0xFFFF#16 then some (dataOf (srcVal s rd)) else leds s)

/-- STORE where nothing is has no effect but the commit: the choice of the model under spec/93_implementation_defined.md U7
(notes/assumptions/11.md).
That it goes on with the R14 stack empty or full, the rest by R137, is the model's choice (notes/assumptions/7.md,
8.md). -/
def Obligations.StoreToHoleHasNoEffect : Prop :=
  ∀ (s : State) (rd rs1 rs2 : Reg), dataRegion s.cfg (effAddr s rs1 rs2) = .hole →
    ∃ t, exec (.store rd rs1 rs2) s = .next t ∧ CommitsOnly [rd, rs1, rs2] [rd, rs1, rs2] none s t

/-- A STORE to RAM followed by a LOAD of the same address returns the data with flag 0, for all of R0 to R12
(R170, R267). -/
def Obligations.StoreThenLoadReturnsData : Prop :=
  ∀ (s : State) (rn rm ra rb : Reg) (ea : Word16),
    isPlain rn = true → isPlain rm = true → isPlain ra = true → isPlain rb = true →
    ea = dataOf (destVal s ra) + dataOf (destVal s rb) → ea.toNat < s.cfg.dmemWords → ea.toNat < 0x8000 →
    ∃ t u, exec (.store rn ra rb) s = .next t ∧ exec (.load rm ra rb) t = .next u ∧
      destVal u rm = mkVal false (dataOf (destVal s rn))

/-- Only STORE changes RAM, no instruction changes IMEM, and only LOAD and STORE reach the devices (R160, R168, R173).
That it goes on with the R14 stack empty or full (notes/assumptions/7.md, 8.md), with an amount of 16 and more while
`SHIFT_AMOUNT_MODE` is unset (9.md) and where nothing is behind a data address (11.md), is the model's choice. -/
def Obligations.OnlyStoreWritesMemory : Prop :=
  ∀ (i : Instr) (s : State), ∃ t, exec i s = .next t ∧ t.imem = s.imem ∧ t.dmemEpoch = s.dmemEpoch ∧
    ((∀ rd rs1 rs2, i ≠ .store rd rs1 rs2) → t.dmem = s.dmem) ∧
    ((∀ rd rs1 rs2, i ≠ .store rd rs1 rs2 ∧ i ≠ .load rd rs1 rs2) → t.events = s.events ∧ t.devIn = s.devIn)

/-- Device events are kept in order, and a step adds at most one (R170, R340). -/
def Obligations.EventsGrowInOrder : Prop :=
  ∀ s t : State, step s = .next t → ∃ ev : List DevEvent, t.events = s.events ++ ev ∧ ev.length ≤ 1

/-! ### Interrupts -/

/-- IRET inside a service routine restores R0 to R7 from the shadows, continues at `ret_pc`, ends the routine, and changes
nothing else (R315); with `SHADOW_MODE = bank`, the alternative of R310, it exchanges the banks back. -/
def Obligations.IretRestoresContext : Prop :=
  ∀ s : State, s.isrActive = true →
    (s.cfg.shadowMode = .copy →
      exec .iret s = .next { s with lo := s.sh, pc := s.retPc, isrActive := false }) ∧
    (s.cfg.shadowMode = .bank →
      exec .iret s = .next { s with lo := s.sh, sh := s.lo, pc := s.retPc, isrActive := false })

/-- The word 0x9F00 with no ISR active is `SUI R15, 0x00`: a branch to 0x0000 that clears R15's flag, and nothing else
(R199). -/
def Obligations.IretOutsideIsrIsSui : Prop :=
  ∀ s : State, s.isrActive = false → exec .iret s = exec (.sui .r15 0x00#8) s ∧
    (s.cfg.suiLow = .clear → exec .iret s = .next { s with pc := 0, r15f := false })

/-- Interrupt entry: with a line requesting, no ISR active and the CPU not halted, the CPU's turn saves R0 to R7 and the
address of the next instruction, goes to the vector of IRQ1 before that of IRQ2, and changes nothing else
(R308, R310); in bank mode R0 to R7 become the second bank. -/
def Obligations.InterruptEntrySavesContext : Prop :=
  ∀ (s : State) (irq1 irq2 : Bool) (rest : List EnvEvent), cpuTurn s irq1 irq2 rest → s.altair.on = false →
    s.isrActive = false → (irq1 || irq2) = true →
    step s = .next { s with env := rest, sh := s.lo, lo := if s.cfg.shadowMode = .copy then s.lo else s.sh,
                            retPc := s.pc, isrActive := true, pc := if irq1 then 0x3FE0#16 else 0x3FC0#16 }

/-- While an ISR is active the lines do not matter: the CPU's turn runs the instruction at `pc` (R316). -/
def Obligations.NoNestedInterrupt : Prop :=
  ∀ (s : State) (irq1 irq2 : Bool) (rest : List EnvEvent), cpuTurn s irq1 irq2 rest → s.altair.on = false →
    s.isrActive = true → s.pc.toNat < s.cfg.imemWords →
    step s = exec (decode (imemWord s s.pc)) (s.withEnv rest)

/-- Whatever a service routine leaves in R0 to R7 and wherever it ends, IRET gives the interrupted program its R0 to R7 and its
address back (R310, R311, R315); in bank mode the routine's own values go back to the second bank. -/
def Obligations.InterruptThenIretResumes : Prop :=
  ∀ (s : State) (k : IrqLine) (regs : Vector RegVal 8) (at' : Word16), s.isrActive = false →
    exec .iret { takeInterrupt k s with lo := regs, pc := at' } =
      .next { s with sh := if s.cfg.shadowMode = .copy then s.lo else regs, retPc := s.pc }

/-- An active ISR ends only by the word 0x9F00, run by the CPU, or by the reset button (R317, R320, R380). -/
def Obligations.IsrEndsOnlyByIretOrReset : Prop :=
  ∀ s t : State, step s = .next t → s.isrActive = true → t.isrActive = false →
    (∃ rest, s.env = .host .btnr :: rest) ∨
    (∃ irq1 irq2 rest, cpuTurn s irq1 irq2 rest ∧ s.altair.on = false ∧ imemWord s s.pc = 0x9F00#16)

/-- With no ISR active no instruction looks at the shadows or at `ret_pc`: runs that differ only there go on differing only
there (R127, R130).
That it goes on with the R14 stack empty or full (notes/assumptions/7.md, 8.md), with an amount of 16 and more while
`SHIFT_AMOUNT_MODE` is unset (9.md) and where nothing is behind a data address (11.md), is the model's choice. -/
def Obligations.ShadowsUnobservedOutsideIsr : Prop :=
  ∀ (i : Instr) (s : State) (h : Vector RegVal 8) (r : Word16), s.isrActive = false →
    ∃ t, exec i s = .next t ∧ exec i { s with sh := h, retPc := r } = .next { t with sh := h, retPc := r }

/-! ### The step -/

/-- Every instruction, in every state and with every operand, goes on to a next state: there is no synchronous exception
(R300). That the R14 stack's open cases, the shift amounts and the unmapped addresses go on with free values is the model's choice
(notes/assumptions/7.md, 8.md, 9.md, 11.md). -/
def Obligations.EveryInstructionCompletes : Prop :=
  ∀ (i : Instr) (s : State), ∃ t, exec i s = .next t

/-- When the CPU has its turn, is not halted and takes no interrupt, the step is the meaning of the instruction that the word
at `pc` decodes to, with the schedule's entry used up (R112). -/
def Obligations.StepRunsDecodedInstruction : Prop :=
  ∀ (s : State) (irq1 irq2 : Bool) (rest : List EnvEvent) (i : Instr), cpuTurn s irq1 irq2 rest →
    s.altair.on = false → irqTaken s irq1 irq2 = none → s.pc.toNat < s.cfg.imemWords →
    decode (imemWord s s.pc) = i → step s = exec i (s.withEnv rest)

/-- A step never refuses, and stops exactly when the CPU must fetch at or above `IMEM_WORDS`; that it stops there is the
model's choice (notes/assumptions/10.md), and so is that no instruction stops in the spec's open cases
(notes/assumptions/7.md, 8.md, 9.md, 11.md). -/
def Obligations.StepStopsOnlyOutsideImem : Prop :=
  ∀ s : State, (∀ r, step s ≠ .refused r) ∧
    ∀ f, step s = .fault f ↔ f = .ifetchOutOfRange ∧ ∃ irq1 irq2 rest, cpuTurn s irq1 irq2 rest ∧
      s.altair.on = false ∧ irqTaken s irq1 irq2 = none ∧ s.cfg.imemWords ≤ s.pc.toNat

/-- A word placed where the machine fetches is the instruction that the next step runs, in every state. What the placing sets
(the word at `pc`, `IMEM_WORDS`, Altair mode, the schedule) is the model's choice (notes/assumptions/25.md). -/
def Obligations.PlacedWordRunsNext : Prop :=
  ∀ (s : State) (w : Word16),
    step (s.withFetchWord 16 w.toNat) = exec (decode w) (s.withFetchWord 16 w.toNat)

/-- Every step keeps the invariant: the sizes stay legal, both memories stay in canonical form and list only words that exist,
and every recorded event is of the I/O region. -/
def Obligations.StepKeepsInvariant : Prop :=
  ∀ s t : State, StateInv s → step s = .next t → StateInv t

/-- The invariant holds after reset. -/
def Obligations.ResetMeetsInvariant : Prop := StateInv State.reset

/-- No step changes a parameter of R107. -/
def Obligations.StepKeepsParameters : Prop :=
  ∀ s t : State, step s = .next t → t.cfg = s.cfg

/-! ### Reset and the front panel -/

/-- The state at power-up, where the spec gives it (R142, R381). -/
def Obligations.PowerUpState : Prop :=
  (∀ i : Fin 8, State.reset.lo[i.val] = 0) ∧
  (∀ i : Fin 5, State.reset.hi[i.val] = if i.val = 4 then 1 else 0) ∧
  State.reset.r13 = 0 ∧ State.reset.sp = 0 ∧ (∀ i : Fin 8, State.reset.stk[i.val] = 0) ∧
  State.reset.pc = 0 ∧ State.reset.r15f = false ∧ (∀ i : Fin 8, State.reset.sh[i.val] = 0) ∧
  State.reset.isrActive = false ∧ State.reset.retPc = 0 ∧ State.reset.speed = .fast ∧
  State.reset.altair.on = false

/-- BTNR gives the processor's reset values from every state, also inside an ISR and in Altair mode; IMEM, speed and Altair mode
stay (R142, R380, R382). -/
def Obligations.ResetButtonResetsProcessor : Prop :=
  ∀ (s : State) (rest : List EnvEvent), s.env = .host .btnr :: rest →
    ∃ t, step s = .next t ∧
      (∀ i : Fin 8, t.lo[i.val] = 0) ∧ (∀ i : Fin 5, t.hi[i.val] = if i.val = 4 then 1 else 0) ∧ t.r13 = 0 ∧
      t.sp = 0 ∧ (∀ i : Fin 8, t.stk[i.val] = 0) ∧ t.pc = 0 ∧ t.r15f = false ∧
      (∀ i : Fin 8, t.sh[i.val] = 0) ∧ t.isrActive = false ∧ t.retPc = 0 ∧
      (∀ a, imemWord t a = imemWord s a) ∧ t.speed = s.speed ∧ t.altair = s.altair ∧ t.cfg = s.cfg ∧
      t.env = rest

/-- While Altair mode is on the CPU takes no step: its turn passes and nothing else happens (R401). -/
def Obligations.AltairModeHaltsCpu : Prop :=
  ∀ (s : State) (irq1 irq2 : Bool) (rest : List EnvEvent), cpuTurn s irq1 irq2 rest → s.altair.on = true →
    step s = .next (s.withEnv rest)

/-- BTND with IMEM selected writes the switches to the word at the current address and to no other, and the address goes up by
one; the mode, the selection and all processor state stay (R175, R401). -/
def Obligations.DepositWritesImem : Prop :=
  ∀ (s : State) (rest : List EnvEvent), s.env = .host .btnd :: rest → s.altair.on = true →
    s.altair.sel = .imem → s.altair.addr.toNat < s.cfg.imemWords → s.imem.wf →
    ∃ t, step s = .next t ∧ imemWord t s.altair.addr = s.switches ∧
      (∀ a, a ≠ s.altair.addr → imemWord t a = imemWord s a) ∧ t.altair.addr = s.altair.addr + 1 ∧
      t.altair.on = true ∧ t.altair.sel = .imem ∧
      t = { s with imem := t.imem, altair := t.altair, env := rest }

/-- BTND with DMEM/IO selected: at a RAM address the switches go to that word and to no other; at an I/O address the access is
one write event and no word changes. The address goes up by one; the mode, the selection and all processor state stay
(R175, R401). That the panel's access is recorded like a STORE's is the model's reading (notes/assumptions/23.md), and that a
Deposit where nothing is has no effect, or at an I/O address without a register is only recorded, its choice
(notes/assumptions/11.md). -/
def Obligations.DepositWritesDmem : Prop :=
  ∀ (s : State) (rest : List EnvEvent), s.env = .host .btnd :: rest → s.altair.on = true →
    s.altair.sel = .data → s.dmem.wf →
    ∃ t, step s = .next t ∧ t.altair.addr = s.altair.addr + 1 ∧ t.altair.on = true ∧ t.altair.sel = .data ∧
      t = { s with dmem := t.dmem, events := t.events, altair := t.altair, env := rest } ∧
      (∀ a, a ≠ s.altair.addr → ramWord t a = ramWord s a) ∧
      (dataRegion s.cfg s.altair.addr = .ram → ramWord t s.altair.addr = s.switches ∧ t.events = s.events) ∧
      (dataRegion s.cfg s.altair.addr = .hole → t.dmem = s.dmem ∧ t.events = s.events) ∧
      (0x8000 ≤ s.altair.addr.toNat →
        t.dmem = s.dmem ∧ t.events = s.events ++ [.write s.altair.addr s.switches])

/-- BTNU sets the address from the switches, the LEDs show the word of the selected memory there, no word changes, and all
processor state stays (R401). That a device is then read once, as by a LOAD, is the model's reading
(notes/assumptions/23.md), and the value at an I/O address without a register its free value (notes/assumptions/11.md). -/
def Obligations.ExamineShowsWord : Prop :=
  ∀ (s : State) (rest : List EnvEvent), s.env = .host .btnu :: rest → s.altair.on = true →
    ∃ t, step s = .next t ∧ t.altair.addr = s.switches ∧ t.altair.sel = s.altair.sel ∧ t.altair.on = true ∧
      (∀ a, imemWord t a = imemWord s a) ∧ (∀ a, ramWord t a = ramWord s a) ∧
      t = { s with altair := t.altair, events := t.events, devIn := t.devIn, draws := t.draws, env := rest } ∧
      (s.altair.sel = .imem → t.events = s.events ∧ t.devIn = s.devIn) ∧
      (dataRegion s.cfg s.switches = .ram → t.events = s.events ∧ t.devIn = s.devIn) ∧
      (s.altair.sel = .imem → s.switches.toNat < s.cfg.imemWords → leds t = some (imemWord s s.switches)) ∧
      (s.altair.sel = .data → dataRegion s.cfg s.switches = .ram → leds t = some (ramWord s s.switches)) ∧
      (s.altair.sel = .data → 0x8000 ≤ s.switches.toNat →
        ∃ v, t.events = s.events ++ [.read s.switches v] ∧ leds t = some v)

/-- BTNL: a short press enters Altair mode, or toggles the selected memory in it; a long press leaves it; nothing of the
processor changes (R401). -/
def Obligations.AltairButtons : Prop :=
  ∀ (s : State) (rest : List EnvEvent),
    (s.env = .host .btnlShort :: rest → s.altair.on = false →
      ∃ t, step s = .next t ∧ t.altair.on = true ∧ t.altair.addr = s.altair.addr ∧
        t = { s with altair := t.altair, draws := t.draws, env := rest }) ∧
    (s.env = .host .btnlShort :: rest → s.altair.on = true →
      ∃ t, step s = .next t ∧ t.altair.on = true ∧ t.altair.addr = s.altair.addr ∧
        (t.altair.sel = .imem ↔ s.altair.sel = .data) ∧ t = { s with altair := t.altair, env := rest }) ∧
    (s.env = .host .btnlLong :: rest → s.altair.on = true →
      step s = .next { s with altair := { s.altair with on := false }, env := rest })

/-- BTNC switches between the two speeds and changes nothing else (R400). -/
def Obligations.SpeedButtonChangesOnlySpeed : Prop :=
  ∀ (s : State) (rest : List EnvEvent), s.env = .host .btnc :: rest →
    ∃ v, step s = .next { s with speed := v, env := rest } ∧ (v = .fast ↔ s.speed = .slow)

/-- The display shows `pc` and the ISR point in normal mode, the panel's address and selection in Altair mode (R402). -/
def Obligations.DisplayShowsState : Prop :=
  ∀ s : State,
    (s.altair.on = false → (display s).digits = s.pc ∧ (display s).dp1 = some s.isrActive) ∧
    (s.altair.on = true → (display s).digits = s.altair.addr ∧
      ((display s).dp3 = some true ↔ s.altair.sel = .imem) ∧ ((display s).dp2 = some true ↔ s.altair.sel = .data))

/-- Setting the slide switches changes the word they present, and nothing else (R403); a LOAD of SWITCHES then returns that
word (R343; notes/assumptions/13.md) and no processor state has changed.
That it goes on with the R14 stack empty or full, the rest by R137, is the model's choice (notes/assumptions/7.md,
8.md). -/
def Obligations.SetSwitchesChangesOnlySwitches : Prop :=
  ∀ (s : State) (v : Word16) (rest : List EnvEvent), s.env = .host (.setSwitches v) :: rest →
    ∃ t, step s = .next t ∧ t = { s with switches := v, env := rest } ∧
      ∀ rd rs1 rs2, effAddr s rs1 rs2 = 0xFFFE#16 →
        ∃ u, exec (.load rd rs1 rs2) t = .next u ∧
          RegistersCommit [rs1, rs2] [rs1, rs2] (some (rd, mkVal false v)) t u ∧
          u.events = s.events ++ [.read 0xFFFE#16 v]
end

