-- ==== Sys2Proof/Laws/State.lean ====
section
/-! SUPPORT. One lemma per field per update of the state, so that no later proof unfolds an update. -/

namespace Sys2Proof.Machine

section
variable (s : State) (i : Fin 8) (v : RegVal)
@[simp] theorem withLo_cfg : (s.withLo i v).cfg = s.cfg := rfl
@[simp] theorem withLo_lo : (s.withLo i v).lo = s.lo.set i.val v := rfl
@[simp] theorem withLo_hi : (s.withLo i v).hi = s.hi := rfl
@[simp] theorem withLo_r13 : (s.withLo i v).r13 = s.r13 := rfl
@[simp] theorem withLo_stk : (s.withLo i v).stk = s.stk := rfl
@[simp] theorem withLo_sp : (s.withLo i v).sp = s.sp := rfl
@[simp] theorem withLo_pc : (s.withLo i v).pc = s.pc := rfl
@[simp] theorem withLo_r15f : (s.withLo i v).r15f = s.r15f := rfl
@[simp] theorem withLo_sh : (s.withLo i v).sh = s.sh := rfl
@[simp] theorem withLo_isrActive : (s.withLo i v).isrActive = s.isrActive := rfl
@[simp] theorem withLo_retPc : (s.withLo i v).retPc = s.retPc := rfl
@[simp] theorem withLo_imem : (s.withLo i v).imem = s.imem := rfl
@[simp] theorem withLo_dmem : (s.withLo i v).dmem = s.dmem := rfl
@[simp] theorem withLo_dmemEpoch : (s.withLo i v).dmemEpoch = s.dmemEpoch := rfl
@[simp] theorem withLo_events : (s.withLo i v).events = s.events := rfl
@[simp] theorem withLo_devIn : (s.withLo i v).devIn = s.devIn := rfl
@[simp] theorem withLo_draws : (s.withLo i v).draws = s.draws := rfl
@[simp] theorem withLo_speed : (s.withLo i v).speed = s.speed := rfl
@[simp] theorem withLo_altair : (s.withLo i v).altair = s.altair := rfl
@[simp] theorem withLo_switches : (s.withLo i v).switches = s.switches := rfl
@[simp] theorem withLo_env : (s.withLo i v).env = s.env := rfl
end

section
variable (s : State) (i : Fin 5) (v : RegVal)
@[simp] theorem withHi_cfg : (s.withHi i v).cfg = s.cfg := rfl
@[simp] theorem withHi_lo : (s.withHi i v).lo = s.lo := rfl
@[simp] theorem withHi_hi : (s.withHi i v).hi = s.hi.set i.val v := rfl
@[simp] theorem withHi_r13 : (s.withHi i v).r13 = s.r13 := rfl
@[simp] theorem withHi_stk : (s.withHi i v).stk = s.stk := rfl
@[simp] theorem withHi_sp : (s.withHi i v).sp = s.sp := rfl
@[simp] theorem withHi_pc : (s.withHi i v).pc = s.pc := rfl
@[simp] theorem withHi_r15f : (s.withHi i v).r15f = s.r15f := rfl
@[simp] theorem withHi_sh : (s.withHi i v).sh = s.sh := rfl
@[simp] theorem withHi_isrActive : (s.withHi i v).isrActive = s.isrActive := rfl
@[simp] theorem withHi_retPc : (s.withHi i v).retPc = s.retPc := rfl
@[simp] theorem withHi_imem : (s.withHi i v).imem = s.imem := rfl
@[simp] theorem withHi_dmem : (s.withHi i v).dmem = s.dmem := rfl
@[simp] theorem withHi_dmemEpoch : (s.withHi i v).dmemEpoch = s.dmemEpoch := rfl
@[simp] theorem withHi_events : (s.withHi i v).events = s.events := rfl
@[simp] theorem withHi_devIn : (s.withHi i v).devIn = s.devIn := rfl
@[simp] theorem withHi_draws : (s.withHi i v).draws = s.draws := rfl
@[simp] theorem withHi_speed : (s.withHi i v).speed = s.speed := rfl
@[simp] theorem withHi_altair : (s.withHi i v).altair = s.altair := rfl
@[simp] theorem withHi_switches : (s.withHi i v).switches = s.switches := rfl
@[simp] theorem withHi_env : (s.withHi i v).env = s.env := rfl
end

section
variable (s : State) (v : RegVal)
@[simp] theorem withR13_cfg : (s.withR13 v).cfg = s.cfg := rfl
@[simp] theorem withR13_lo : (s.withR13 v).lo = s.lo := rfl
@[simp] theorem withR13_hi : (s.withR13 v).hi = s.hi := rfl
@[simp] theorem withR13_r13 : (s.withR13 v).r13 = v := rfl
@[simp] theorem withR13_stk : (s.withR13 v).stk = s.stk := rfl
@[simp] theorem withR13_sp : (s.withR13 v).sp = s.sp := rfl
@[simp] theorem withR13_pc : (s.withR13 v).pc = s.pc := rfl
@[simp] theorem withR13_r15f : (s.withR13 v).r15f = s.r15f := rfl
@[simp] theorem withR13_sh : (s.withR13 v).sh = s.sh := rfl
@[simp] theorem withR13_isrActive : (s.withR13 v).isrActive = s.isrActive := rfl
@[simp] theorem withR13_retPc : (s.withR13 v).retPc = s.retPc := rfl
@[simp] theorem withR13_imem : (s.withR13 v).imem = s.imem := rfl
@[simp] theorem withR13_dmem : (s.withR13 v).dmem = s.dmem := rfl
@[simp] theorem withR13_dmemEpoch : (s.withR13 v).dmemEpoch = s.dmemEpoch := rfl
@[simp] theorem withR13_events : (s.withR13 v).events = s.events := rfl
@[simp] theorem withR13_devIn : (s.withR13 v).devIn = s.devIn := rfl
@[simp] theorem withR13_draws : (s.withR13 v).draws = s.draws := rfl
@[simp] theorem withR13_speed : (s.withR13 v).speed = s.speed := rfl
@[simp] theorem withR13_altair : (s.withR13 v).altair = s.altair := rfl
@[simp] theorem withR13_switches : (s.withR13 v).switches = s.switches := rfl
@[simp] theorem withR13_env : (s.withR13 v).env = s.env := rfl
end

section
variable (s : State) (k : Vector RegVal 8) (p : Fin 9)
@[simp] theorem withStack_cfg : (s.withStack k p).cfg = s.cfg := rfl
@[simp] theorem withStack_lo : (s.withStack k p).lo = s.lo := rfl
@[simp] theorem withStack_hi : (s.withStack k p).hi = s.hi := rfl
@[simp] theorem withStack_r13 : (s.withStack k p).r13 = s.r13 := rfl
@[simp] theorem withStack_stk : (s.withStack k p).stk = k := rfl
@[simp] theorem withStack_sp : (s.withStack k p).sp = p := rfl
@[simp] theorem withStack_pc : (s.withStack k p).pc = s.pc := rfl
@[simp] theorem withStack_r15f : (s.withStack k p).r15f = s.r15f := rfl
@[simp] theorem withStack_sh : (s.withStack k p).sh = s.sh := rfl
@[simp] theorem withStack_isrActive : (s.withStack k p).isrActive = s.isrActive := rfl
@[simp] theorem withStack_retPc : (s.withStack k p).retPc = s.retPc := rfl
@[simp] theorem withStack_imem : (s.withStack k p).imem = s.imem := rfl
@[simp] theorem withStack_dmem : (s.withStack k p).dmem = s.dmem := rfl
@[simp] theorem withStack_dmemEpoch : (s.withStack k p).dmemEpoch = s.dmemEpoch := rfl
@[simp] theorem withStack_events : (s.withStack k p).events = s.events := rfl
@[simp] theorem withStack_devIn : (s.withStack k p).devIn = s.devIn := rfl
@[simp] theorem withStack_draws : (s.withStack k p).draws = s.draws := rfl
@[simp] theorem withStack_speed : (s.withStack k p).speed = s.speed := rfl
@[simp] theorem withStack_altair : (s.withStack k p).altair = s.altair := rfl
@[simp] theorem withStack_switches : (s.withStack k p).switches = s.switches := rfl
@[simp] theorem withStack_env : (s.withStack k p).env = s.env := rfl
end

section
variable (s : State) (t : Word16)
@[simp] theorem withPc_cfg : (s.withPc t).cfg = s.cfg := rfl
@[simp] theorem withPc_lo : (s.withPc t).lo = s.lo := rfl
@[simp] theorem withPc_hi : (s.withPc t).hi = s.hi := rfl
@[simp] theorem withPc_r13 : (s.withPc t).r13 = s.r13 := rfl
@[simp] theorem withPc_stk : (s.withPc t).stk = s.stk := rfl
@[simp] theorem withPc_sp : (s.withPc t).sp = s.sp := rfl
@[simp] theorem withPc_pc : (s.withPc t).pc = t := rfl
@[simp] theorem withPc_r15f : (s.withPc t).r15f = s.r15f := rfl
@[simp] theorem withPc_sh : (s.withPc t).sh = s.sh := rfl
@[simp] theorem withPc_isrActive : (s.withPc t).isrActive = s.isrActive := rfl
@[simp] theorem withPc_retPc : (s.withPc t).retPc = s.retPc := rfl
@[simp] theorem withPc_imem : (s.withPc t).imem = s.imem := rfl
@[simp] theorem withPc_dmem : (s.withPc t).dmem = s.dmem := rfl
@[simp] theorem withPc_dmemEpoch : (s.withPc t).dmemEpoch = s.dmemEpoch := rfl
@[simp] theorem withPc_events : (s.withPc t).events = s.events := rfl
@[simp] theorem withPc_devIn : (s.withPc t).devIn = s.devIn := rfl
@[simp] theorem withPc_draws : (s.withPc t).draws = s.draws := rfl
@[simp] theorem withPc_speed : (s.withPc t).speed = s.speed := rfl
@[simp] theorem withPc_altair : (s.withPc t).altair = s.altair := rfl
@[simp] theorem withPc_switches : (s.withPc t).switches = s.switches := rfl
@[simp] theorem withPc_env : (s.withPc t).env = s.env := rfl
end

section
variable (s : State) (v : RegVal)
@[simp] theorem withR15_cfg : (s.withR15 v).cfg = s.cfg := rfl
@[simp] theorem withR15_lo : (s.withR15 v).lo = s.lo := rfl
@[simp] theorem withR15_hi : (s.withR15 v).hi = s.hi := rfl
@[simp] theorem withR15_r13 : (s.withR15 v).r13 = s.r13 := rfl
@[simp] theorem withR15_stk : (s.withR15 v).stk = s.stk := rfl
@[simp] theorem withR15_sp : (s.withR15 v).sp = s.sp := rfl
@[simp] theorem withR15_pc : (s.withR15 v).pc = dataOf v := rfl
@[simp] theorem withR15_r15f : (s.withR15 v).r15f = flagOf v := rfl
@[simp] theorem withR15_sh : (s.withR15 v).sh = s.sh := rfl
@[simp] theorem withR15_isrActive : (s.withR15 v).isrActive = s.isrActive := rfl
@[simp] theorem withR15_retPc : (s.withR15 v).retPc = s.retPc := rfl
@[simp] theorem withR15_imem : (s.withR15 v).imem = s.imem := rfl
@[simp] theorem withR15_dmem : (s.withR15 v).dmem = s.dmem := rfl
@[simp] theorem withR15_dmemEpoch : (s.withR15 v).dmemEpoch = s.dmemEpoch := rfl
@[simp] theorem withR15_events : (s.withR15 v).events = s.events := rfl
@[simp] theorem withR15_devIn : (s.withR15 v).devIn = s.devIn := rfl
@[simp] theorem withR15_draws : (s.withR15 v).draws = s.draws := rfl
@[simp] theorem withR15_speed : (s.withR15 v).speed = s.speed := rfl
@[simp] theorem withR15_altair : (s.withR15 v).altair = s.altair := rfl
@[simp] theorem withR15_switches : (s.withR15 v).switches = s.switches := rfl
@[simp] theorem withR15_env : (s.withR15 v).env = s.env := rfl
end

section
variable (s : State) (r h : Vector RegVal 8)
@[simp] theorem withBank_cfg : (s.withBank r h).cfg = s.cfg := rfl
@[simp] theorem withBank_lo : (s.withBank r h).lo = r := rfl
@[simp] theorem withBank_hi : (s.withBank r h).hi = s.hi := rfl
@[simp] theorem withBank_r13 : (s.withBank r h).r13 = s.r13 := rfl
@[simp] theorem withBank_stk : (s.withBank r h).stk = s.stk := rfl
@[simp] theorem withBank_sp : (s.withBank r h).sp = s.sp := rfl
@[simp] theorem withBank_pc : (s.withBank r h).pc = s.pc := rfl
@[simp] theorem withBank_r15f : (s.withBank r h).r15f = s.r15f := rfl
@[simp] theorem withBank_sh : (s.withBank r h).sh = h := rfl
@[simp] theorem withBank_isrActive : (s.withBank r h).isrActive = s.isrActive := rfl
@[simp] theorem withBank_retPc : (s.withBank r h).retPc = s.retPc := rfl
@[simp] theorem withBank_imem : (s.withBank r h).imem = s.imem := rfl
@[simp] theorem withBank_dmem : (s.withBank r h).dmem = s.dmem := rfl
@[simp] theorem withBank_dmemEpoch : (s.withBank r h).dmemEpoch = s.dmemEpoch := rfl
@[simp] theorem withBank_events : (s.withBank r h).events = s.events := rfl
@[simp] theorem withBank_devIn : (s.withBank r h).devIn = s.devIn := rfl
@[simp] theorem withBank_draws : (s.withBank r h).draws = s.draws := rfl
@[simp] theorem withBank_speed : (s.withBank r h).speed = s.speed := rfl
@[simp] theorem withBank_altair : (s.withBank r h).altair = s.altair := rfl
@[simp] theorem withBank_switches : (s.withBank r h).switches = s.switches := rfl
@[simp] theorem withBank_env : (s.withBank r h).env = s.env := rfl
end

section
variable (s : State) (b : Bool) (r : Word16)
@[simp] theorem withIsr_cfg : (s.withIsr b r).cfg = s.cfg := rfl
@[simp] theorem withIsr_lo : (s.withIsr b r).lo = s.lo := rfl
@[simp] theorem withIsr_hi : (s.withIsr b r).hi = s.hi := rfl
@[simp] theorem withIsr_r13 : (s.withIsr b r).r13 = s.r13 := rfl
@[simp] theorem withIsr_stk : (s.withIsr b r).stk = s.stk := rfl
@[simp] theorem withIsr_sp : (s.withIsr b r).sp = s.sp := rfl
@[simp] theorem withIsr_pc : (s.withIsr b r).pc = s.pc := rfl
@[simp] theorem withIsr_r15f : (s.withIsr b r).r15f = s.r15f := rfl
@[simp] theorem withIsr_sh : (s.withIsr b r).sh = s.sh := rfl
@[simp] theorem withIsr_isrActive : (s.withIsr b r).isrActive = b := rfl
@[simp] theorem withIsr_retPc : (s.withIsr b r).retPc = r := rfl
@[simp] theorem withIsr_imem : (s.withIsr b r).imem = s.imem := rfl
@[simp] theorem withIsr_dmem : (s.withIsr b r).dmem = s.dmem := rfl
@[simp] theorem withIsr_dmemEpoch : (s.withIsr b r).dmemEpoch = s.dmemEpoch := rfl
@[simp] theorem withIsr_events : (s.withIsr b r).events = s.events := rfl
@[simp] theorem withIsr_devIn : (s.withIsr b r).devIn = s.devIn := rfl
@[simp] theorem withIsr_draws : (s.withIsr b r).draws = s.draws := rfl
@[simp] theorem withIsr_speed : (s.withIsr b r).speed = s.speed := rfl
@[simp] theorem withIsr_altair : (s.withIsr b r).altair = s.altair := rfl
@[simp] theorem withIsr_switches : (s.withIsr b r).switches = s.switches := rfl
@[simp] theorem withIsr_env : (s.withIsr b r).env = s.env := rfl
end

section
variable (s : State) (m : Memory)
@[simp] theorem withImem_cfg : (s.withImem m).cfg = s.cfg := rfl
@[simp] theorem withImem_lo : (s.withImem m).lo = s.lo := rfl
@[simp] theorem withImem_hi : (s.withImem m).hi = s.hi := rfl
@[simp] theorem withImem_r13 : (s.withImem m).r13 = s.r13 := rfl
@[simp] theorem withImem_stk : (s.withImem m).stk = s.stk := rfl
@[simp] theorem withImem_sp : (s.withImem m).sp = s.sp := rfl
@[simp] theorem withImem_pc : (s.withImem m).pc = s.pc := rfl
@[simp] theorem withImem_r15f : (s.withImem m).r15f = s.r15f := rfl
@[simp] theorem withImem_sh : (s.withImem m).sh = s.sh := rfl
@[simp] theorem withImem_isrActive : (s.withImem m).isrActive = s.isrActive := rfl
@[simp] theorem withImem_retPc : (s.withImem m).retPc = s.retPc := rfl
@[simp] theorem withImem_imem : (s.withImem m).imem = m := rfl
@[simp] theorem withImem_dmem : (s.withImem m).dmem = s.dmem := rfl
@[simp] theorem withImem_dmemEpoch : (s.withImem m).dmemEpoch = s.dmemEpoch := rfl
@[simp] theorem withImem_events : (s.withImem m).events = s.events := rfl
@[simp] theorem withImem_devIn : (s.withImem m).devIn = s.devIn := rfl
@[simp] theorem withImem_draws : (s.withImem m).draws = s.draws := rfl
@[simp] theorem withImem_speed : (s.withImem m).speed = s.speed := rfl
@[simp] theorem withImem_altair : (s.withImem m).altair = s.altair := rfl
@[simp] theorem withImem_switches : (s.withImem m).switches = s.switches := rfl
@[simp] theorem withImem_env : (s.withImem m).env = s.env := rfl
end

section
variable (s : State) (m : Memory)
@[simp] theorem withDmem_cfg : (s.withDmem m).cfg = s.cfg := rfl
@[simp] theorem withDmem_lo : (s.withDmem m).lo = s.lo := rfl
@[simp] theorem withDmem_hi : (s.withDmem m).hi = s.hi := rfl
@[simp] theorem withDmem_r13 : (s.withDmem m).r13 = s.r13 := rfl
@[simp] theorem withDmem_stk : (s.withDmem m).stk = s.stk := rfl
@[simp] theorem withDmem_sp : (s.withDmem m).sp = s.sp := rfl
@[simp] theorem withDmem_pc : (s.withDmem m).pc = s.pc := rfl
@[simp] theorem withDmem_r15f : (s.withDmem m).r15f = s.r15f := rfl
@[simp] theorem withDmem_sh : (s.withDmem m).sh = s.sh := rfl
@[simp] theorem withDmem_isrActive : (s.withDmem m).isrActive = s.isrActive := rfl
@[simp] theorem withDmem_retPc : (s.withDmem m).retPc = s.retPc := rfl
@[simp] theorem withDmem_imem : (s.withDmem m).imem = s.imem := rfl
@[simp] theorem withDmem_dmem : (s.withDmem m).dmem = m := rfl
@[simp] theorem withDmem_dmemEpoch : (s.withDmem m).dmemEpoch = s.dmemEpoch := rfl
@[simp] theorem withDmem_events : (s.withDmem m).events = s.events := rfl
@[simp] theorem withDmem_devIn : (s.withDmem m).devIn = s.devIn := rfl
@[simp] theorem withDmem_draws : (s.withDmem m).draws = s.draws := rfl
@[simp] theorem withDmem_speed : (s.withDmem m).speed = s.speed := rfl
@[simp] theorem withDmem_altair : (s.withDmem m).altair = s.altair := rfl
@[simp] theorem withDmem_switches : (s.withDmem m).switches = s.switches := rfl
@[simp] theorem withDmem_env : (s.withDmem m).env = s.env := rfl
end

section
variable (s : State) (q : List Word16)
@[simp] theorem withDevIn_cfg : (s.withDevIn q).cfg = s.cfg := rfl
@[simp] theorem withDevIn_lo : (s.withDevIn q).lo = s.lo := rfl
@[simp] theorem withDevIn_hi : (s.withDevIn q).hi = s.hi := rfl
@[simp] theorem withDevIn_r13 : (s.withDevIn q).r13 = s.r13 := rfl
@[simp] theorem withDevIn_stk : (s.withDevIn q).stk = s.stk := rfl
@[simp] theorem withDevIn_sp : (s.withDevIn q).sp = s.sp := rfl
@[simp] theorem withDevIn_pc : (s.withDevIn q).pc = s.pc := rfl
@[simp] theorem withDevIn_r15f : (s.withDevIn q).r15f = s.r15f := rfl
@[simp] theorem withDevIn_sh : (s.withDevIn q).sh = s.sh := rfl
@[simp] theorem withDevIn_isrActive : (s.withDevIn q).isrActive = s.isrActive := rfl
@[simp] theorem withDevIn_retPc : (s.withDevIn q).retPc = s.retPc := rfl
@[simp] theorem withDevIn_imem : (s.withDevIn q).imem = s.imem := rfl
@[simp] theorem withDevIn_dmem : (s.withDevIn q).dmem = s.dmem := rfl
@[simp] theorem withDevIn_dmemEpoch : (s.withDevIn q).dmemEpoch = s.dmemEpoch := rfl
@[simp] theorem withDevIn_events : (s.withDevIn q).events = s.events := rfl
@[simp] theorem withDevIn_devIn : (s.withDevIn q).devIn = q := rfl
@[simp] theorem withDevIn_draws : (s.withDevIn q).draws = s.draws := rfl
@[simp] theorem withDevIn_speed : (s.withDevIn q).speed = s.speed := rfl
@[simp] theorem withDevIn_altair : (s.withDevIn q).altair = s.altair := rfl
@[simp] theorem withDevIn_switches : (s.withDevIn q).switches = s.switches := rfl
@[simp] theorem withDevIn_env : (s.withDevIn q).env = s.env := rfl
end

section
variable (s : State) (a : Altair)
@[simp] theorem withAltair_cfg : (s.withAltair a).cfg = s.cfg := rfl
@[simp] theorem withAltair_lo : (s.withAltair a).lo = s.lo := rfl
@[simp] theorem withAltair_hi : (s.withAltair a).hi = s.hi := rfl
@[simp] theorem withAltair_r13 : (s.withAltair a).r13 = s.r13 := rfl
@[simp] theorem withAltair_stk : (s.withAltair a).stk = s.stk := rfl
@[simp] theorem withAltair_sp : (s.withAltair a).sp = s.sp := rfl
@[simp] theorem withAltair_pc : (s.withAltair a).pc = s.pc := rfl
@[simp] theorem withAltair_r15f : (s.withAltair a).r15f = s.r15f := rfl
@[simp] theorem withAltair_sh : (s.withAltair a).sh = s.sh := rfl
@[simp] theorem withAltair_isrActive : (s.withAltair a).isrActive = s.isrActive := rfl
@[simp] theorem withAltair_retPc : (s.withAltair a).retPc = s.retPc := rfl
@[simp] theorem withAltair_imem : (s.withAltair a).imem = s.imem := rfl
@[simp] theorem withAltair_dmem : (s.withAltair a).dmem = s.dmem := rfl
@[simp] theorem withAltair_dmemEpoch : (s.withAltair a).dmemEpoch = s.dmemEpoch := rfl
@[simp] theorem withAltair_events : (s.withAltair a).events = s.events := rfl
@[simp] theorem withAltair_devIn : (s.withAltair a).devIn = s.devIn := rfl
@[simp] theorem withAltair_draws : (s.withAltair a).draws = s.draws := rfl
@[simp] theorem withAltair_speed : (s.withAltair a).speed = s.speed := rfl
@[simp] theorem withAltair_altair : (s.withAltair a).altair = a := rfl
@[simp] theorem withAltair_switches : (s.withAltair a).switches = s.switches := rfl
@[simp] theorem withAltair_env : (s.withAltair a).env = s.env := rfl
end

section
variable (s : State) (v : Speed)
@[simp] theorem withSpeed_cfg : (s.withSpeed v).cfg = s.cfg := rfl
@[simp] theorem withSpeed_lo : (s.withSpeed v).lo = s.lo := rfl
@[simp] theorem withSpeed_hi : (s.withSpeed v).hi = s.hi := rfl
@[simp] theorem withSpeed_r13 : (s.withSpeed v).r13 = s.r13 := rfl
@[simp] theorem withSpeed_stk : (s.withSpeed v).stk = s.stk := rfl
@[simp] theorem withSpeed_sp : (s.withSpeed v).sp = s.sp := rfl
@[simp] theorem withSpeed_pc : (s.withSpeed v).pc = s.pc := rfl
@[simp] theorem withSpeed_r15f : (s.withSpeed v).r15f = s.r15f := rfl
@[simp] theorem withSpeed_sh : (s.withSpeed v).sh = s.sh := rfl
@[simp] theorem withSpeed_isrActive : (s.withSpeed v).isrActive = s.isrActive := rfl
@[simp] theorem withSpeed_retPc : (s.withSpeed v).retPc = s.retPc := rfl
@[simp] theorem withSpeed_imem : (s.withSpeed v).imem = s.imem := rfl
@[simp] theorem withSpeed_dmem : (s.withSpeed v).dmem = s.dmem := rfl
@[simp] theorem withSpeed_dmemEpoch : (s.withSpeed v).dmemEpoch = s.dmemEpoch := rfl
@[simp] theorem withSpeed_events : (s.withSpeed v).events = s.events := rfl
@[simp] theorem withSpeed_devIn : (s.withSpeed v).devIn = s.devIn := rfl
@[simp] theorem withSpeed_draws : (s.withSpeed v).draws = s.draws := rfl
@[simp] theorem withSpeed_speed : (s.withSpeed v).speed = v := rfl
@[simp] theorem withSpeed_altair : (s.withSpeed v).altair = s.altair := rfl
@[simp] theorem withSpeed_switches : (s.withSpeed v).switches = s.switches := rfl
@[simp] theorem withSpeed_env : (s.withSpeed v).env = s.env := rfl
end

section
variable (s : State) (v : Word16)
@[simp] theorem withSwitches_cfg : (s.withSwitches v).cfg = s.cfg := rfl
@[simp] theorem withSwitches_lo : (s.withSwitches v).lo = s.lo := rfl
@[simp] theorem withSwitches_hi : (s.withSwitches v).hi = s.hi := rfl
@[simp] theorem withSwitches_r13 : (s.withSwitches v).r13 = s.r13 := rfl
@[simp] theorem withSwitches_stk : (s.withSwitches v).stk = s.stk := rfl
@[simp] theorem withSwitches_sp : (s.withSwitches v).sp = s.sp := rfl
@[simp] theorem withSwitches_pc : (s.withSwitches v).pc = s.pc := rfl
@[simp] theorem withSwitches_r15f : (s.withSwitches v).r15f = s.r15f := rfl
@[simp] theorem withSwitches_sh : (s.withSwitches v).sh = s.sh := rfl
@[simp] theorem withSwitches_isrActive : (s.withSwitches v).isrActive = s.isrActive := rfl
@[simp] theorem withSwitches_retPc : (s.withSwitches v).retPc = s.retPc := rfl
@[simp] theorem withSwitches_imem : (s.withSwitches v).imem = s.imem := rfl
@[simp] theorem withSwitches_dmem : (s.withSwitches v).dmem = s.dmem := rfl
@[simp] theorem withSwitches_dmemEpoch : (s.withSwitches v).dmemEpoch = s.dmemEpoch := rfl
@[simp] theorem withSwitches_events : (s.withSwitches v).events = s.events := rfl
@[simp] theorem withSwitches_devIn : (s.withSwitches v).devIn = s.devIn := rfl
@[simp] theorem withSwitches_draws : (s.withSwitches v).draws = s.draws := rfl
@[simp] theorem withSwitches_speed : (s.withSwitches v).speed = s.speed := rfl
@[simp] theorem withSwitches_altair : (s.withSwitches v).altair = s.altair := rfl
@[simp] theorem withSwitches_switches : (s.withSwitches v).switches = v := rfl
@[simp] theorem withSwitches_env : (s.withSwitches v).env = s.env := rfl
end

section
variable (s : State) (q : List EnvEvent)
@[simp] theorem withEnv_cfg : (s.withEnv q).cfg = s.cfg := rfl
@[simp] theorem withEnv_lo : (s.withEnv q).lo = s.lo := rfl
@[simp] theorem withEnv_hi : (s.withEnv q).hi = s.hi := rfl
@[simp] theorem withEnv_r13 : (s.withEnv q).r13 = s.r13 := rfl
@[simp] theorem withEnv_stk : (s.withEnv q).stk = s.stk := rfl
@[simp] theorem withEnv_sp : (s.withEnv q).sp = s.sp := rfl
@[simp] theorem withEnv_pc : (s.withEnv q).pc = s.pc := rfl
@[simp] theorem withEnv_r15f : (s.withEnv q).r15f = s.r15f := rfl
@[simp] theorem withEnv_sh : (s.withEnv q).sh = s.sh := rfl
@[simp] theorem withEnv_isrActive : (s.withEnv q).isrActive = s.isrActive := rfl
@[simp] theorem withEnv_retPc : (s.withEnv q).retPc = s.retPc := rfl
@[simp] theorem withEnv_imem : (s.withEnv q).imem = s.imem := rfl
@[simp] theorem withEnv_dmem : (s.withEnv q).dmem = s.dmem := rfl
@[simp] theorem withEnv_dmemEpoch : (s.withEnv q).dmemEpoch = s.dmemEpoch := rfl
@[simp] theorem withEnv_events : (s.withEnv q).events = s.events := rfl
@[simp] theorem withEnv_devIn : (s.withEnv q).devIn = s.devIn := rfl
@[simp] theorem withEnv_draws : (s.withEnv q).draws = s.draws := rfl
@[simp] theorem withEnv_speed : (s.withEnv q).speed = s.speed := rfl
@[simp] theorem withEnv_altair : (s.withEnv q).altair = s.altair := rfl
@[simp] theorem withEnv_switches : (s.withEnv q).switches = s.switches := rfl
@[simp] theorem withEnv_env : (s.withEnv q).env = q := rfl
end

section
variable (s : State) (e : DevEvent)
@[simp] theorem record_cfg : (s.record e).cfg = s.cfg := rfl
@[simp] theorem record_lo : (s.record e).lo = s.lo := rfl
@[simp] theorem record_hi : (s.record e).hi = s.hi := rfl
@[simp] theorem record_r13 : (s.record e).r13 = s.r13 := rfl
@[simp] theorem record_stk : (s.record e).stk = s.stk := rfl
@[simp] theorem record_sp : (s.record e).sp = s.sp := rfl
@[simp] theorem record_pc : (s.record e).pc = s.pc := rfl
@[simp] theorem record_r15f : (s.record e).r15f = s.r15f := rfl
@[simp] theorem record_sh : (s.record e).sh = s.sh := rfl
@[simp] theorem record_isrActive : (s.record e).isrActive = s.isrActive := rfl
@[simp] theorem record_retPc : (s.record e).retPc = s.retPc := rfl
@[simp] theorem record_imem : (s.record e).imem = s.imem := rfl
@[simp] theorem record_dmem : (s.record e).dmem = s.dmem := rfl
@[simp] theorem record_dmemEpoch : (s.record e).dmemEpoch = s.dmemEpoch := rfl
@[simp] theorem record_events : (s.record e).events = s.events ++ [e] := rfl
@[simp] theorem record_devIn : (s.record e).devIn = s.devIn := rfl
@[simp] theorem record_draws : (s.record e).draws = s.draws := rfl
@[simp] theorem record_speed : (s.record e).speed = s.speed := rfl
@[simp] theorem record_altair : (s.record e).altair = s.altair := rfl
@[simp] theorem record_switches : (s.record e).switches = s.switches := rfl
@[simp] theorem record_env : (s.record e).env = s.env := rfl
end

section
variable (s : State)
@[simp] theorem bump_cfg : (s.bump).cfg = s.cfg := rfl
@[simp] theorem bump_lo : (s.bump).lo = s.lo := rfl
@[simp] theorem bump_hi : (s.bump).hi = s.hi := rfl
@[simp] theorem bump_r13 : (s.bump).r13 = s.r13 := rfl
@[simp] theorem bump_stk : (s.bump).stk = s.stk := rfl
@[simp] theorem bump_sp : (s.bump).sp = s.sp := rfl
@[simp] theorem bump_pc : (s.bump).pc = s.pc := rfl
@[simp] theorem bump_r15f : (s.bump).r15f = s.r15f := rfl
@[simp] theorem bump_sh : (s.bump).sh = s.sh := rfl
@[simp] theorem bump_isrActive : (s.bump).isrActive = s.isrActive := rfl
@[simp] theorem bump_retPc : (s.bump).retPc = s.retPc := rfl
@[simp] theorem bump_imem : (s.bump).imem = s.imem := rfl
@[simp] theorem bump_dmem : (s.bump).dmem = s.dmem := rfl
@[simp] theorem bump_dmemEpoch : (s.bump).dmemEpoch = s.dmemEpoch := rfl
@[simp] theorem bump_events : (s.bump).events = s.events := rfl
@[simp] theorem bump_devIn : (s.bump).devIn = s.devIn := rfl
@[simp] theorem bump_draws : (s.bump).draws = s.draws + 1 := rfl
@[simp] theorem bump_speed : (s.bump).speed = s.speed := rfl
@[simp] theorem bump_altair : (s.bump).altair = s.altair := rfl
@[simp] theorem bump_switches : (s.bump).switches = s.switches := rfl
@[simp] theorem bump_env : (s.bump).env = s.env := rfl
end

end Sys2Proof.Machine
end

