-- ==== Sys2Proof/Laws/Words.lean ====
section
/-! SUPPORT. The small lemmas of register values: flag and data of a built value, of a zero-extended word. -/

namespace Sys2Proof

theorem mkVal_getLsbD (f : Bool) (d : Word16) (i : Nat) :
    (mkVal f d).getLsbD i = if i < 16 then d.getLsbD i else (decide (i = 16) && f) := by
  rw [mkVal, BitVec.getLsbD_cast, BitVec.getLsbD_append]
  by_cases h : i < 16
  · simp [h]
  · rw [if_neg h, if_neg h, BitVec.getLsbD_ofBool]
    simp only [decide_eq_decide.mpr (show i - 16 = 0 ↔ i = 16 by omega)]

@[simp] theorem flagOf_mkVal (f : Bool) (d : Word16) : flagOf (mkVal f d) = f := by
  rw [flagOf, mkVal_getLsbD]
  simp

@[simp] theorem dataOf_mkVal (f : Bool) (d : Word16) : dataOf (mkVal f d) = d := by
  apply BitVec.eq_of_getLsbD_eq
  intro i hi
  rw [dataOf, BitVec.getLsbD_setWidth, mkVal_getLsbD]
  simp [hi]

theorem mkVal_flagOf_dataOf (v : RegVal) : mkVal (flagOf v) (dataOf v) = v := by
  apply BitVec.eq_of_getLsbD_eq
  intro i hi
  rw [mkVal_getLsbD]
  by_cases h : i < 16
  · simp [dataOf, h]
  · have : i = 16 := by omega
    subst this
    simp [flagOf]

/-- A register value is its flag and its data. -/
theorem regVal_ext {v w : RegVal} (hf : flagOf v = flagOf w) (hd : dataOf v = dataOf w) : v = w := by
  rw [← mkVal_flagOf_dataOf v, ← mkVal_flagOf_dataOf w, hf, hd]

theorem dataOf_toNat (v : RegVal) : (dataOf v).toNat = v.toNat % 65536 := by
  simp [dataOf]

theorem flagOf_eq_decide (v : RegVal) : flagOf v = decide (65536 ≤ v.toNat) := by
  have h := v.isLt
  rw [flagOf, BitVec.getLsbD, Nat.testBit_eq_decide_div_mod_eq]
  simp only [decide_eq_decide]
  omega

namespace Machine

@[simp] theorem flagOf_zext17 (d : Word16) : flagOf (zext17 d) = false := by
  simp [flagOf, zext17]

@[simp] theorem dataOf_zext17 (d : Word16) : dataOf (zext17 d) = d := by
  simp [dataOf, zext17]

@[simp] theorem zext17_toNat (d : Word16) : (zext17 d).toNat = d.toNat := by
  have := d.isLt
  simp [zext17]
  omega

end Machine

end Sys2Proof
end

