-- ==== Sys2Proof/Laws/Memory.lean ====
section
/-! SUPPORT. What the memory operations do, said once: reading after writing, the canonical form, and the cases of
a data read and a data write. -/

namespace Sys2Proof.Machine

theorem memLookup_memInsert_same (m : Memory) (a : Nat) (v : Word16) :
    memLookup (memInsert m a v) a = some v := by
  induction m with
  | nil => simp [memInsert, memLookup]
  | cons c m ih =>
    obtain ⟨b, w⟩ := c
    simp only [memInsert]
    split
    · simp [memLookup]
    · split
      · simp [memLookup]
      · simp [memLookup, *]

theorem memLookup_of_forall_gt {m : Memory} {a : Nat} (h : ∀ c ∈ m, a < c.1) : memLookup m a = none := by
  cases m with
  | nil => rfl
  | cons c m =>
    obtain ⟨b, w⟩ := c
    have : a < b := h (b, w) (by simp)
    simp [memLookup, this, Nat.ne_of_lt this]

theorem memLookup_memInsert_other {m : Memory} (hm : m.Pairwise (fun c d => c.1 < d.1)) {a b : Nat} (v : Word16)
    (h : b ≠ a) : memLookup (memInsert m a v) b = memLookup m b := by
  induction m with
  | nil => simp [memInsert, memLookup, h]
  | cons c m ih =>
    obtain ⟨k, w⟩ := c
    rw [List.pairwise_cons] at hm
    simp only [memInsert]
    split
    · subst_vars
      simp [memLookup, h]
    · split
      · by_cases hb : b < a
        · have hk : b < k := by omega
          simp [memLookup, h, hb, hk, Nat.ne_of_lt hk]
        · simp [memLookup, h, hb]
      · simp only [memLookup]
        rw [ih hm.2]

/-- Inserting lists the new word and nothing else new. -/
theorem mem_memInsert {m : Memory} {a : Nat} {v : Word16} {c : Cell} (h : c ∈ memInsert m a v) :
    c = (a, v) ∨ c ∈ m := by
  induction m with
  | nil => simpa [memInsert] using h
  | cons d m ih =>
    obtain ⟨b, w⟩ := d
    simp only [memInsert] at h
    split at h
    · rcases List.mem_cons.mp h with h | h
      · exact .inl h
      · exact .inr (List.mem_cons_of_mem _ h)
    · split at h
      · rcases List.mem_cons.mp h with h | h
        · exact .inl h
        · exact .inr h
      · rcases List.mem_cons.mp h with h | h
        · exact .inr (h ▸ List.mem_cons_self)
        · rcases ih h with h | h
          · exact .inl h
          · exact .inr (List.mem_cons_of_mem _ h)

/-- Every write keeps the canonical form. -/
theorem memInsert_wf {m : Memory} (hm : m.wf) {a : Nat} (ha : a < 0x10000) (v : Word16) : (memInsert m a v).wf := by
  refine ⟨?_, ?_⟩
  · have hp := hm.1
    clear hm
    induction m with
    | nil => simp [memInsert]
    | cons d m ih =>
      obtain ⟨b, w⟩ := d
      rw [List.pairwise_cons] at hp
      simp only [memInsert]
      split
      · subst_vars
        exact List.pairwise_cons.mpr hp
      · split
        · rename_i _ hlt
          refine List.pairwise_cons.mpr ⟨?_, List.pairwise_cons.mpr hp⟩
          intro c hc
          rcases List.mem_cons.mp hc with rfl | hc
          · exact hlt
          · exact Nat.lt_trans hlt (hp.1 c hc)
        · refine List.pairwise_cons.mpr ⟨?_, ih hp.2⟩
          intro c hc
          rcases mem_memInsert hc with rfl | hc
          · dsimp only
            omega
          · exact hp.1 c hc
  · intro c hc
    rcases mem_memInsert hc with rfl | hc
    · exact ha
    · exact hm.2 c hc

theorem reset_imem_wf : State.reset.imem.wf := by decide

theorem reset_dmem_wf : State.reset.dmem.wf := by decide

/-- A RAM word that has been written is what was written. -/
theorem ramWord_withDmem_same (s : State) (a v : Word16) :
    ramWord (s.withDmem (memInsert s.dmem a.toNat v)) a = v := by
  simp [ramWord, memLookup_memInsert_same]

/-- A write of RAM leaves every other word. -/
theorem ramWord_withDmem_other {s : State} (hs : s.dmem.wf) {a b : Word16} (v : Word16) (h : b ≠ a) :
    ramWord (s.withDmem (memInsert s.dmem a.toNat v)) b = ramWord s b := by
  have hn : b.toNat ≠ a.toNat := fun e => h (BitVec.eq_of_toNat_eq e)
  simp [ramWord, memLookup_memInsert_other hs.1 v hn]

/-- All a data read can do: the word, and the state after it. -/
theorem memRead_cases (s : State) (a : Word16) :
    (dataRegion s.cfg a = .ram ∧ memRead s a = (ramWord s a, s)) ∨
    (dataRegion s.cfg a = .hole ∧ memRead s a = (Config.unmappedRead s.draws a, s.bump)) ∨
    (dataRegion s.cfg a = .ioUnmapped ∧
      memRead s a = (Config.unmappedRead s.draws a, s.bump.record (.read a (Config.unmappedRead s.draws a)))) ∨
    (∃ row, dataRegion s.cfg a = .device row ∧
      memRead s a = ((deviceValue s row).1, (deviceValue s row).2.record (.read a (deviceValue s row).1))) := by
  unfold memRead
  split <;> simp_all

/-- All a data write can do. -/
theorem memWrite_cases (s : State) (a v : Word16) :
    (dataRegion s.cfg a = .ram ∧ memWrite s a v = s.withDmem (memInsert s.dmem a.toNat v)) ∨
    (dataRegion s.cfg a = .hole ∧ memWrite s a v = s) ∨
    ((dataRegion s.cfg a = .ioUnmapped ∨ ∃ row, dataRegion s.cfg a = .device row) ∧
      memWrite s a v = s.record (.write a v)) := by
  unfold memWrite
  split <;> simp_all

/-- All an answer of a device can be: the switches, the next queued word, or a free value. -/
theorem deviceValue_cases (s : State) (row : DevRow) :
    (row.reg = .switches ∧ deviceValue s row = (s.switches, s)) ∨
    (row.reg ≠ .switches ∧ ∃ v q, s.devIn = v :: q ∧ deviceValue s row = (v, s.withDevIn q)) ∨
    (row.reg ≠ .switches ∧ s.devIn = [] ∧ deviceValue s row = (Config.deviceRead s.draws row.addr, s.bump)) := by
  unfold deviceValue deviceAnswer
  split
  · exact .inl ⟨‹_›, rfl⟩
  · split <;> simp_all

/-- The regions of the data address map by address. -/
theorem dataRegion_ram_iff (p : Params) (a : Word16) :
    dataRegion p a = .ram ↔ a.toNat < 0x8000 ∧ a.toNat < p.dmemWords := by
  unfold dataRegion
  split
  · split <;> simp <;> omega
  · split <;> simp <;> omega

theorem dataRegion_io {p : Params} {a : Word16} (h : dataRegion p a = .ioUnmapped ∨ ∃ row, dataRegion p a = .device row) :
    0x8000 ≤ a.toNat := by
  unfold dataRegion at h
  split at h
  · assumption
  · split at h <;> simp at h

/-- What a data read leaves: every field but the events, the device queue and the draws. -/
theorem memRead_frame (s : State) (a : Word16) :
    ∃ ev q n, (memRead s a).2 = { s with events := s.events ++ ev, devIn := q, draws := n } ∧
      (∀ e ∈ ev, e = .read a (memRead s a).1 ∧ 0x8000 ≤ a.toNat) := by
  rcases memRead_cases s a with ⟨_, h⟩ | ⟨_, h⟩ | ⟨hr, h⟩ | ⟨row, hr, h⟩ <;> rw [h]
  · exact ⟨[], s.devIn, s.draws, by simp, by simp⟩
  · exact ⟨[], s.devIn, s.draws + 1, by simp [State.bump], by simp⟩
  · exact ⟨[_], s.devIn, s.draws + 1, rfl, by simp [dataRegion_io (.inl hr)]⟩
  · have hio := dataRegion_io (.inr ⟨row, hr⟩)
    rcases deviceValue_cases s row with ⟨_, h⟩ | ⟨_, v, q, _, h⟩ | ⟨_, _, h⟩ <;> rw [h]
    · exact ⟨[_], s.devIn, s.draws, rfl, by simp [hio]⟩
    · exact ⟨[_], q, s.draws, rfl, by simp [hio]⟩
    · exact ⟨[_], s.devIn, s.draws + 1, rfl, by simp [hio]⟩

end Sys2Proof.Machine
end

