-- ==== Sys2Proof/Laws/Operands.lean ====
section
/-! SUPPORT. What an operand read gives, said once per kind of register and of position (spec/10_state.md R135). -/

namespace Sys2Proof.Machine

/-- The top of a stack that is not empty. -/
theorem stackTop_of_sp {s : State} {j : Fin 8} (h : s.sp.val = j.val + 1) : stackTop s = s.stk[j.val] := by
  have h0 : s.sp ≠ 0 := fun e => by simp [e] at h
  simp [stackTop, h0, h]

@[simp] theorem destVal_lo (s : State) (i : Fin 8) : destVal s (.lo i) = s.lo[i.val] := rfl
@[simp] theorem destVal_hi (s : State) (i : Fin 5) : destVal s (.hi i) = s.hi[i.val] := rfl
@[simp] theorem destVal_r13 (s : State) : destVal s .r13 = s.r13 := rfl
@[simp] theorem destVal_r15 (s : State) : destVal s .r15 = mkVal s.r15f (s.pc + s.cfg.pcReadOffset) := rfl

/-- Only R13 can read differently in a source position. -/
theorem srcVal_of_ne_r13 {r : Reg} (h : r ≠ .r13) (s : State) : srcVal s r = destVal s r := by
  simp [srcVal, h]

theorem srcVal_r13_before {s : State} (h : s.cfg.r13Read = .before) : srcVal s .r13 = s.r13 := by
  simp [srcVal, h]

theorem srcVal_r13_after {s : State} (h : s.cfg.r13Read = .after) : srcVal s .r13 = decVal s.r13 := by
  simp [srcVal, h]

/-- Two positions that name one register receive the same value. -/
theorem rdVal_of_mem {decs : List Reg} {rd : Reg} (h : rd ∈ decs) (s : State) : rdVal decs s rd = srcVal s rd :=
  if_pos h

theorem rdVal_of_not_mem {decs : List Reg} {rd : Reg} (h : rd ∉ decs) (s : State) :
    rdVal decs s rd = destVal s rd :=
  if_neg h

/-- Where no register is read after its decrement, every position reads alike. -/
theorem rdVal_eq_destVal {decs : List Reg} {rd : Reg} {s : State} (h : rd ≠ .r13 ∨ s.cfg.r13Read = .before) :
    rdVal decs s rd = destVal s rd := by
  unfold rdVal srcVal
  rcases h with h | h <;> simp [h]

end Sys2Proof.Machine
end

