-- ==== Sys2Proof/Laws/Commit.lean ====
section
/-! SUPPORT. What the commit, an interrupt entry, a return from one and an instruction can do, said once. -/

namespace Sys2Proof.Machine

/-! ### The parts of the commit -/

theorem set_getElem_lo (k : Vector RegVal 8) (i j : Fin 8) (v : RegVal) :
    (k.set i.val v)[j.val] = (if i = j then some v else none).getD k[j.val] := by
  rw [Vector.getElem_set]
  simp only [Fin.ext_iff]
  split <;> rfl

theorem set_getElem_hi (k : Vector RegVal 5) (i j : Fin 5) (v : RegVal) :
    (k.set i.val v)[j.val] = (if i = j then some v else none).getD k[j.val] := by
  rw [Vector.getElem_set]
  simp only [Fin.ext_iff]
  split <;> rfl

/-- All the decrement can do. -/
theorem commitDec_cases (decs : List Reg) (dest : Dest) (s : State) :
    ((.r13 ∈ decs ∧ destAt dest .r13 = none) ∧ commitDec decs dest s = s.withR13 (decVal s.r13)) ∨
    (¬(.r13 ∈ decs ∧ destAt dest .r13 = none) ∧ commitDec decs dest s = s) := by
  unfold commitDec
  split <;> simp_all

/-- All a stack action can do. -/
theorem commitStack_frame (reads : List Reg) (dest : Dest) (s : State) :
    ∃ k p n, commitStack reads dest s = { s with stk := k, sp := p, draws := n } := by
  unfold commitStack stackModify stackPop stackPush stackUnderflow stackOverflow
  split
  all_goals first
    | exact ⟨s.stk, s.sp, s.draws, rfl⟩
    | (split <;> exact ⟨_, _, _, rfl⟩)

/-- The stack after a stack action, where the spec gives it (R140). -/
theorem commitStack_stack (reads : List Reg) (dest : Dest) (s : State) :
    StackCommit reads dest s (commitStack reads dest s) := by
  unfold StackCommit commitStack
  cases hr : decide (Reg.r14 ∈ reads) <;> cases hd : destAt dest .r14 <;> dsimp only
  · exact ⟨rfl, rfl⟩
  · intro hsp
    have hlt : s.sp.val < 8 := by
      have := s.sp.isLt
      have : s.sp.val ≠ 8 := fun e => hsp (Fin.ext e)
      omega
    refine ⟨?_, ?_⟩
    · simp only [stackPush, if_neg hsp, withStack_sp]
      rw [Fin.val_add_one_of_lt' (by omega)]
    · intro j
      simp only [stackPush, if_neg hsp, withStack_stk]
      rw [Vector.getElem_setIfInBounds]
      simp [eq_comm]
  · intro hsp
    have h0 : s.sp.val ≠ 0 := fun e => hsp (Fin.ext e)
    refine ⟨?_, by simp only [stackPop, if_neg hsp, withStack_stk]⟩
    simp only [stackPop, if_neg hsp, withStack_sp]
    have h1 : (1 : Fin 9) ≤ s.sp := by
      rw [Fin.le_def]
      exact Nat.one_le_iff_ne_zero.mpr h0
    rw [Fin.sub_val_of_le h1]
    have : (1 : Fin 9).val = 1 := rfl
    omega
  · intro hsp
    have h0 : s.sp.val ≠ 0 := fun e => hsp (Fin.ext e)
    refine ⟨by simp only [stackModify, if_neg hsp, withStack_sp], ?_⟩
    intro j
    simp only [stackModify, if_neg hsp, withStack_stk]
    rw [Vector.getElem_setIfInBounds]
    by_cases h : s.sp.val - 1 = j.val
    · have : j.val + 1 = s.sp.val := by omega
      simp [h, this]
    · have : ¬ j.val + 1 = s.sp.val := by omega
      simp [h, this]

/-- All a commit can change: the registers, the stack and the draws. -/
theorem commit_frame (reads decs : List Reg) (dest : Dest) (s : State) :
    ∃ l h r k p n c f, commit reads decs dest s =
      { s with lo := l, hi := h, r13 := r, stk := k, sp := p, draws := n, pc := c, r15f := f } := by
  obtain ⟨k, p, n, hk⟩ := commitStack_frame reads dest (commitDec decs dest s)
  unfold commit
  rw [hk]
  have hdec : ∃ r, commitDec decs dest s = { s with r13 := r } := by
    rcases commitDec_cases decs dest s with ⟨_, h⟩ | ⟨_, h⟩
    · exact ⟨_, h⟩
    · exact ⟨s.r13, h⟩
  obtain ⟨r, hr⟩ := hdec
  rw [hr]
  unfold commitPc commitPlain
  split <;> split <;> exact ⟨_, _, _, _, _, _, _, _, rfl⟩

/-- R0 to R15 after a commit, line by line of R137. -/
theorem commit_registers (reads decs : List Reg) (dest : Dest) (s : State) :
    RegistersCommit reads decs dest s (commit reads decs dest s) := by
  have hst := commitStack_stack reads dest (commitDec decs dest s)
  obtain ⟨k, p, n, hk⟩ := commitStack_frame reads dest (commitDec decs dest s)
  have hsk : (commitDec decs dest s).stk = s.stk ∧ (commitDec decs dest s).sp = s.sp := by
    rcases commitDec_cases decs dest s with ⟨_, h⟩ | ⟨_, h⟩ <;> simp [h]
  have hdec := commitDec_cases decs dest s
  unfold commit
  rw [hk] at hst ⊢
  have hst' : StackCommit reads dest s { s with stk := k, sp := p } := by
    unfold StackCommit at hst ⊢
    rw [hsk.1, hsk.2] at hst
    exact hst
  have hst2 : ∀ t : State, t.stk = k → t.sp = p → StackCommit reads dest s t := by
    intro t h1 h2
    unfold StackCommit at hst' ⊢
    rw [h1, h2]
    exact hst'
  clear hst hst' hk
  rcases dest with _ | ⟨_ | _ | _ | _ | _, v⟩ <;> rcases hdec with ⟨⟨hm, hd⟩, h⟩ | ⟨hm, h⟩ <;>
    simp_all [RegistersCommit, commitPc, commitPlain, destAt, decVal, set_getElem_lo, set_getElem_hi] <;>
    exact hst2 _ rfl rfl

/-! ### What a commit leaves as it was -/

section
variable (reads decs : List Reg) (dest : Dest) (s : State)

@[simp] theorem commit_cfg : (commit reads decs dest s).cfg = s.cfg := by
  obtain ⟨_, _, _, _, _, _, _, _, h⟩ := commit_frame reads decs dest s
  rw [h]

@[simp] theorem commit_sh : (commit reads decs dest s).sh = s.sh := by
  obtain ⟨_, _, _, _, _, _, _, _, h⟩ := commit_frame reads decs dest s
  rw [h]

@[simp] theorem commit_isrActive : (commit reads decs dest s).isrActive = s.isrActive := by
  obtain ⟨_, _, _, _, _, _, _, _, h⟩ := commit_frame reads decs dest s
  rw [h]

@[simp] theorem commit_retPc : (commit reads decs dest s).retPc = s.retPc := by
  obtain ⟨_, _, _, _, _, _, _, _, h⟩ := commit_frame reads decs dest s
  rw [h]

@[simp] theorem commit_imem : (commit reads decs dest s).imem = s.imem := by
  obtain ⟨_, _, _, _, _, _, _, _, h⟩ := commit_frame reads decs dest s
  rw [h]

@[simp] theorem commit_dmem : (commit reads decs dest s).dmem = s.dmem := by
  obtain ⟨_, _, _, _, _, _, _, _, h⟩ := commit_frame reads decs dest s
  rw [h]

@[simp] theorem commit_dmemEpoch : (commit reads decs dest s).dmemEpoch = s.dmemEpoch := by
  obtain ⟨_, _, _, _, _, _, _, _, h⟩ := commit_frame reads decs dest s
  rw [h]

@[simp] theorem commit_events : (commit reads decs dest s).events = s.events := by
  obtain ⟨_, _, _, _, _, _, _, _, h⟩ := commit_frame reads decs dest s
  rw [h]

@[simp] theorem commit_devIn : (commit reads decs dest s).devIn = s.devIn := by
  obtain ⟨_, _, _, _, _, _, _, _, h⟩ := commit_frame reads decs dest s
  rw [h]

/-- A commit by itself has no effect but R137's. -/
theorem commit_only : CommitsOnly reads decs dest s (commit reads decs dest s) := by
  refine ⟨commit_registers reads decs dest s, ?_, ?_⟩ <;>
    obtain ⟨_, _, _, _, _, _, _, _, h⟩ := commit_frame reads decs dest s <;> rw [h]
  · exact ⟨fun _ => rfl, fun _ => rfl, rfl, rfl⟩
  · exact ⟨rfl, rfl, rfl, rfl, rfl, rfl, rfl, rfl⟩

end

/-! ### Interrupts -/

/-- All an interrupt entry does (R310). -/
theorem takeInterrupt_eq (k : IrqLine) (s : State) :
    takeInterrupt k s = { s with
      lo := if s.cfg.shadowMode = .copy then s.lo else s.sh
      sh := s.lo, retPc := s.pc, isrActive := true, pc := irqVector k } := by
  unfold takeInterrupt saveBank
  split <;> simp_all [State.withBank, State.withIsr, State.withPc]

/-- All a return from an interrupt does (R315). -/
theorem returnFromInterrupt_eq (s : State) :
    returnFromInterrupt s = { s with
      lo := s.sh, sh := if s.cfg.shadowMode = .copy then s.sh else s.lo
      isrActive := false, pc := s.retPc } := by
  unfold returnFromInterrupt restoreBank
  split <;> simp_all [State.withBank, State.withIsr, State.withPc]

/-- When an interrupt is taken (R308, R316). -/
theorem irqTaken_some_iff (s : State) (irq1 irq2 : Bool) (k : IrqLine) :
    irqTaken s irq1 irq2 = some k ↔ s.isrActive = false ∧
      ((irq1 = true ∧ k = .irq1) ∨ (irq1 = false ∧ irq2 = true ∧ k = .irq2)) := by
  unfold irqTaken
  cases s.isrActive <;> cases irq1 <;> cases irq2 <;> cases k <;> simp

/-! ### An instruction -/

/-- All an instruction can do: IRET inside a service routine returns; every other accesses memory if it is a LOAD or
STORE, and commits by the positions of R138 with the destination of R138. -/
theorem exec_cases (i : Instr) (s : State) :
    (leavesIsr i s = true ∧ exec i s = .next (returnFromInterrupt s)) ∨
    (leavesIsr i s = false ∧ ∃ dest : Dest, dest.map Prod.fst = destReg i s ∧
      exec i s = .next (commit (readPositions i s) (decPositions i) dest (accessed i s))) := by
  cases i
  case iret =>
    cases h : s.isrActive
    · exact .inr ⟨by simp [leavesIsr, h], some (.r15, suiVal s.cfg.suiLow (destVal s .r15) 0), rfl,
        by simp [exec, execIret, h, readPositions, decPositions, accessed]⟩
    · exact .inl ⟨by simp [leavesIsr, h], by simp [exec, execIret, h]⟩
  case caiz rd rs1 imm4 =>
    refine .inr ⟨rfl, ?_⟩
    cases h : zeroCond s.cfg.zeroTestWidth (srcVal s rs1)
    · exact ⟨none, by simp [destReg, condHolds, h],
        by simp [exec, execCaiz, conditionalAdd, readPositions, decPositions, accessed, condHolds, h]⟩
    · exact ⟨some (rd, addiVal s.cfg.imm4Ext (rdVal [rs1] s rd) imm4), by simp [destReg, condHolds, h],
        by simp [exec, execCaiz, conditionalAdd, readPositions, decPositions, accessed, condHolds, h]⟩
  case caif rd rs1 imm4 =>
    refine .inr ⟨rfl, ?_⟩
    cases h : flagOf (srcVal s rs1)
    · exact ⟨none, by simp [destReg, condHolds, h],
        by simp [exec, execCaif, conditionalAdd, readPositions, decPositions, accessed, condHolds, h]⟩
    · exact ⟨some (rd, addiVal s.cfg.imm4Ext (rdVal [rs1] s rd) imm4), by simp [destReg, condHolds, h],
        by simp [exec, execCaif, conditionalAdd, readPositions, decPositions, accessed, condHolds, h]⟩
  case store rd rs1 rs2 => exact .inr ⟨rfl, none, rfl, rfl⟩
  all_goals exact .inr ⟨rfl, some (_, _), rfl, rfl⟩

/-- All a step can do. -/
theorem step_cases (s : State) :
    (∃ a rest, s.env = .host a :: rest ∧ step s = .next (hostAction a (s.withEnv rest))) ∨
    (∃ irq1 irq2 rest, cpuTurn s irq1 irq2 rest ∧ step s = cpuStep irq1 irq2 (s.withEnv rest)) := by
  unfold step machineStep
  split
  · rename_i h
    refine .inr ⟨false, false, [], .inr ⟨h, rfl, rfl, rfl⟩, ?_⟩
    have : s.withEnv [] = s := by rw [← h]; rfl
    rw [this]
  · exact .inr ⟨_, _, _, .inl ‹_›, rfl⟩
  · exact .inl ⟨_, _, ‹_›, rfl⟩

/-- All the CPU's turn can do. -/
theorem cpuStep_cases (irq1 irq2 : Bool) (s : State) :
    (s.altair.on = true ∧ cpuStep irq1 irq2 s = .next s) ∨
    (s.altair.on = false ∧ ∃ k, irqTaken s irq1 irq2 = some k ∧ cpuStep irq1 irq2 s = .next (takeInterrupt k s)) ∨
    (s.altair.on = false ∧ irqTaken s irq1 irq2 = none ∧ s.cfg.imemWords ≤ s.pc.toNat ∧
      cpuStep irq1 irq2 s = .fault .ifetchOutOfRange) ∨
    (s.altair.on = false ∧ irqTaken s irq1 irq2 = none ∧ s.pc.toNat < s.cfg.imemWords ∧
      cpuStep irq1 irq2 s = exec (decode (imemWord s s.pc)) s) := by
  unfold cpuStep
  cases hon : s.altair.on
  · cases hk : irqTaken s irq1 irq2 with
    | some k => exact .inr (.inl ⟨rfl, k, rfl, rfl⟩)
    | none =>
      by_cases h : s.pc.toNat < s.cfg.imemWords
      · exact .inr (.inr (.inr ⟨rfl, rfl, h, by simp [fetchExec, ifetch, h]⟩))
      · exact .inr (.inr (.inl ⟨rfl, rfl, Nat.le_of_not_lt h, by simp [fetchExec, ifetch, h]⟩))
  · exact .inl ⟨rfl, rfl⟩

end Sys2Proof.Machine
end

