-- ==== Sys2Proof/Laws/PerInstr.lean ====
section
/-! SUPPORT. One law about every instruction as syntax: its word has the match bits of its row of
spec/opcode_table.json under that row's mask (spec/30_encoding.md R196, R200). -/

namespace Sys2Proof.Laws

/-- The columns match and mask of an instruction's row (R196, R200). -/
def OpcodeField.row : Instr → Word16 × Word16
  | .and _ _ _ => (0x0000, 0xF000)
  | .nand _ _ _ => (0x1000, 0xF000)
  | .or _ _ _ => (0x2000, 0xF000)
  | .xor _ _ _ => (0x3000, 0xF000)
  | .add _ _ _ => (0x4000, 0xF000)
  | .sub _ _ _ => (0x5000, 0xF000)
  | .shr _ _ _ => (0x6000, 0xF000)
  | .shl _ _ _ => (0x7000, 0xF000)
  | .ali _ _ => (0x8000, 0xF000)
  | .sui _ _ => (0x9000, 0xF000)
  | .addi _ _ _ => (0xA000, 0xF000)
  | .bitw _ _ _ => (0xB000, 0xF000)
  | .load _ _ _ => (0xC000, 0xF000)
  | .store _ _ _ => (0xD000, 0xF000)
  | .caiz _ _ _ => (0xE000, 0xF000)
  | .caif _ _ _ => (0xF000, 0xF000)
  | .nop => (0x0000, 0xFFFF)
  | .iret => (0x9F00, 0xFFFF)

/-- The word of an instruction is one that its row matches. -/
def OpcodeField.Statement (i : Instr) : Prop :=
  encode i &&& (OpcodeField.row i).2 = (OpcodeField.row i).1

/-- The top four bits of a word that begins with `op`. -/
theorem cat_and_mask (op : BitVec 4) (low : BitVec 12) (w : Word16)
    (hw : ∀ k, w.getLsbD k = if k < 12 then low.getLsbD k else op.getLsbD (k - 12)) :
    w &&& 0xF000#16 = op.setWidth 16 <<< 12 := by
  apply BitVec.eq_of_getLsbD_eq
  intro k hk
  rw [BitVec.getLsbD_and, hw]
  interval_cases k <;> simp

theorem encodeR_and_mask (op : BitVec 4) (rd rs1 rs2 : Reg) :
    encodeR op rd rs1 rs2 &&& 0xF000#16 = op.setWidth 16 <<< 12 := by
  refine cat_and_mask op (regBits rd ++ regBits rs1 ++ regBits rs2) _ fun k => ?_
  simp only [encodeR, BitVec.getLsbD_append]
  grind

theorem encodeI4_and_mask (op : BitVec 4) (rd rs1 : Reg) (imm4 : BitVec 4) :
    encodeI4 op rd rs1 imm4 &&& 0xF000#16 = op.setWidth 16 <<< 12 := by
  refine cat_and_mask op (regBits rd ++ regBits rs1 ++ imm4) _ fun k => ?_
  simp only [encodeI4, BitVec.getLsbD_append]
  grind

theorem encodeI8_and_mask (op : BitVec 4) (rd : Reg) (imm8 : BitVec 8) :
    encodeI8 op rd imm8 &&& 0xF000#16 = op.setWidth 16 <<< 12 := by
  refine cat_and_mask op (regBits rd ++ imm8) _ fun k => ?_
  simp only [encodeI8, BitVec.getLsbD_append]
  grind

theorem OpcodeField.and (rd rs1 rs2 : Reg) : OpcodeField.Statement (.and rd rs1 rs2) := encodeR_and_mask _ _ _ _
theorem OpcodeField.nand (rd rs1 rs2 : Reg) : OpcodeField.Statement (.nand rd rs1 rs2) := encodeR_and_mask _ _ _ _
theorem OpcodeField.or (rd rs1 rs2 : Reg) : OpcodeField.Statement (.or rd rs1 rs2) := encodeR_and_mask _ _ _ _
theorem OpcodeField.xor (rd rs1 rs2 : Reg) : OpcodeField.Statement (.xor rd rs1 rs2) := encodeR_and_mask _ _ _ _
theorem OpcodeField.add (rd rs1 rs2 : Reg) : OpcodeField.Statement (.add rd rs1 rs2) := encodeR_and_mask _ _ _ _
theorem OpcodeField.sub (rd rs1 rs2 : Reg) : OpcodeField.Statement (.sub rd rs1 rs2) := encodeR_and_mask _ _ _ _
theorem OpcodeField.shr (rd rs1 rs2 : Reg) : OpcodeField.Statement (.shr rd rs1 rs2) := encodeR_and_mask _ _ _ _
theorem OpcodeField.shl (rd rs1 rs2 : Reg) : OpcodeField.Statement (.shl rd rs1 rs2) := encodeR_and_mask _ _ _ _
theorem OpcodeField.ali (rd : Reg) (imm8 : BitVec 8) : OpcodeField.Statement (.ali rd imm8) := encodeI8_and_mask _ _ _
theorem OpcodeField.sui (rd : Reg) (imm8 : BitVec 8) : OpcodeField.Statement (.sui rd imm8) := encodeI8_and_mask _ _ _
theorem OpcodeField.addi (rd rs1 : Reg) (imm4 : BitVec 4) : OpcodeField.Statement (.addi rd rs1 imm4) :=
  encodeI4_and_mask _ _ _ _
theorem OpcodeField.bitw (rd rs1 rs2 : Reg) : OpcodeField.Statement (.bitw rd rs1 rs2) := encodeR_and_mask _ _ _ _
theorem OpcodeField.load (rd rs1 rs2 : Reg) : OpcodeField.Statement (.load rd rs1 rs2) := encodeR_and_mask _ _ _ _
theorem OpcodeField.store (rd rs1 rs2 : Reg) : OpcodeField.Statement (.store rd rs1 rs2) := encodeR_and_mask _ _ _ _
theorem OpcodeField.caiz (rd rs1 : Reg) (imm4 : BitVec 4) : OpcodeField.Statement (.caiz rd rs1 imm4) :=
  encodeI4_and_mask _ _ _ _
theorem OpcodeField.caif (rd rs1 : Reg) (imm4 : BitVec 4) : OpcodeField.Statement (.caif rd rs1 imm4) :=
  encodeI4_and_mask _ _ _ _
theorem OpcodeField.nop : OpcodeField.Statement .nop := by unfold OpcodeField.Statement; decide
theorem OpcodeField.iret : OpcodeField.Statement .iret := by unfold OpcodeField.Statement; decide

end Sys2Proof.Laws
end

