-- ==== Sys2Proof/Machine/Asm.lean ====
section
/-! DEFINITION. The assembler form of an instruction, as far as spec/30_encoding.md R196, R200 and R201 show it: mnemonic,
operands separated by commas, the destination first, memory operands in brackets. No step uses it. -/

namespace Sys2Proof.Machine

/-- `R` and the register's decimal number (R201). -/
def regText : Reg → String
  | .lo i => "R" ++ Nat.repr i.val
  | .hi i => "R" ++ Nat.repr (8 + i.val)
  | .r13 => "R13"
  | .r14 => "R14"
  | .r15 => "R15"

/-- imm4 as a decimal number, with a minus sign for a negative one (R193, R201). -/
def imm4Text (ext : Ext) (imm4 : BitVec 4) : String :=
  match ext with
  | .zero => Nat.repr imm4.toNat
  | .sign => if imm4.toNat < 8 then Nat.repr imm4.toNat else "-" ++ Nat.repr (16 - imm4.toNat)

/-- One hexadecimal digit. -/
def hexDigitText (d : BitVec 4) : String :=
  if d.toNat < 10 then Nat.repr d.toNat
  else match d.toNat with
    | 10 => "A"
    | 11 => "B"
    | 12 => "C"
    | 13 => "D"
    | 14 => "E"
    | _ => "F"

/-- imm8 in hexadecimal with the prefix 0x (R201). -/
def imm8Text (imm8 : BitVec 8) : String :=
  "0x" ++ hexDigitText (imm8.extractLsb' 4 4) ++ hexDigitText (imm8.extractLsb' 0 4)

/-- The form `rd, rs1, rs2` (R196). -/
def asmR (name : String) (rd rs1 rs2 : Reg) : String :=
  name ++ " " ++ regText rd ++ ", " ++ regText rs1 ++ ", " ++ regText rs2

/-- The form `rd, [rs1+rs2]` (R196). -/
def asmMem (name : String) (rd rs1 rs2 : Reg) : String :=
  name ++ " " ++ regText rd ++ ", [" ++ regText rs1 ++ "+" ++ regText rs2 ++ "]"

/-- The form `rd, rs1, imm4` (R196). -/
def asmI4 (name : String) (ext : Ext) (rd rs1 : Reg) (imm4 : BitVec 4) : String :=
  name ++ " " ++ regText rd ++ ", " ++ regText rs1 ++ ", " ++ imm4Text ext imm4

/-- The form `rd, imm8` (R196). -/
def asmI8 (name : String) (rd : Reg) (imm8 : BitVec 8) : String := name ++ " " ++ regText rd ++ ", " ++ imm8Text imm8

/-- The assembler form of an instruction (R196, R200). -/
def asmText (ext : Ext) : Instr → String
  | .and rd rs1 rs2 => asmR "AND" rd rs1 rs2
  | .nand rd rs1 rs2 => asmR "NAND" rd rs1 rs2
  | .or rd rs1 rs2 => asmR "OR" rd rs1 rs2
  | .xor rd rs1 rs2 => asmR "XOR" rd rs1 rs2
  | .add rd rs1 rs2 => asmR "ADD" rd rs1 rs2
  | .sub rd rs1 rs2 => asmR "SUB" rd rs1 rs2
  | .shr rd rs1 rs2 => asmR "SHR" rd rs1 rs2
  | .shl rd rs1 rs2 => asmR "SHL" rd rs1 rs2
  | .ali rd imm8 => asmI8 "ALI" rd imm8
  | .sui rd imm8 => asmI8 "SUI" rd imm8
  | .addi rd rs1 imm4 => asmI4 "ADDI" ext rd rs1 imm4
  | .bitw rd rs1 rs2 => asmR "BITW" rd rs1 rs2
  | .load rd rs1 rs2 => asmMem "LOAD" rd rs1 rs2
  | .store rd rs1 rs2 => asmMem "STORE" rd rs1 rs2
  | .caiz rd rs1 imm4 => asmI4 "CAIZ" ext rd rs1 imm4
  | .caif rd rs1 imm4 => asmI4 "CAIF" ext rd rs1 imm4
  | .nop => "NOP"
  | .iret => "IRET"

end Sys2Proof.Machine
end

