-- ==== Sys2Proof/Tests/Slice0.lean ====
section
/-! SUPPORT. Tests: ill-formed terms, the decoding of words written out from spec/30_encoding.md R191 and R196, single
steps with the values of spec/95_test_vectors.md (the vector's number stands in each comment), and for every statement with
hypotheses a concrete state and operands that meet them. -/

namespace Sys2Proof.Tests

open Sys2Proof.Machine

/-! ### Helpers -/

/-- `s` with a value in a register of R0 to R13. -/
def put (r : Reg) (v : RegVal) (s : State) : State :=
  match r with
  | .lo i => s.withLo i v
  | .hi i => s.withHi i v
  | .r13 => s.withR13 v
  | .r14 => s
  | .r15 => s

/-- The reset state with values in R1 and R2. -/
def two (a b : RegVal) : State := put .r2 b (put .r1 a State.reset)

/-- The reset state with a parameter record changed. -/
def withCfg (p : Params) (s : State) : State := { s with cfg := p }

/-- The reset state with entries on the R14 stack. -/
def stacked (k : Vector RegVal 8) (p : Fin 9) : State := State.reset.withStack k p

/-- What `f` sees after one step that runs the word `w` at `pc`; none if the step stops. -/
def after {α : Type} (w : Nat) (s : State) (f : State → α) : Option α :=
  match step (s.withFetchWord 16 w) with
  | .next t => some (f t)
  | .fault _ => none
  | .refused _ => none

/-- What `f` sees after one step of the schedule as it stands in `s`. -/
def stepped {α : Type} (s : State) (f : State → α) : Option α :=
  match step s with
  | .next t => some (f t)
  | .fault _ => none
  | .refused _ => none

/-! ### Well-formedness -/

theorem test_wellFormed_refuses_and_r0_r0_r0 : (Instr.and .r0 .r0 .r0).wellFormed = false := by decide
theorem test_wellFormed_refuses_sui_r15_0 : (Instr.sui .r15 0x00#8).wellFormed = false := by decide
theorem test_wellFormed_accepts_nop : Instr.nop.wellFormed = true := by decide
theorem test_wellFormed_accepts_sui_r15_1 : (Instr.sui .r15 0x01#8).wellFormed = true := by decide

/-! ### Decoding: opcode, rd, rs1 and rs2 written out nibble by nibble (section 2.1, E1 to E21) -/

theorem test_decode_and : decode 0b0000_0011_0001_0010#16 = .and .r3 .r1 .r2 := by decide
theorem test_decode_nand : decode 0b0001_0011_0001_0010#16 = .nand .r3 .r1 .r2 := by decide
theorem test_decode_or : decode 0b0010_0011_0001_0010#16 = .or .r3 .r1 .r2 := by decide
theorem test_decode_xor : decode 0b0011_0011_0001_0010#16 = .xor .r3 .r1 .r2 := by decide
theorem test_decode_add : decode 0b0100_0011_0001_0010#16 = .add .r3 .r1 .r2 := by decide
theorem test_decode_sub : decode 0b0101_0011_0001_0010#16 = .sub .r3 .r1 .r2 := by decide
theorem test_decode_shr : decode 0b0110_0011_0001_0010#16 = .shr .r3 .r1 .r2 := by decide
theorem test_decode_shl : decode 0b0111_1111_1111_1111#16 = .shl .r15 .r15 .r15 := by decide
theorem test_decode_ali : decode 0b1000_0001_0011_0100#16 = .ali .r1 0x34#8 := by decide
theorem test_decode_sui : decode 0b1001_1111_0000_0001#16 = .sui .r15 0x01#8 := by decide
theorem test_decode_addi : decode 0b1010_1110_1111_0010#16 = .addi .r14 .r15 2#4 := by decide
theorem test_decode_bitw : decode 0b1011_0010_0001_0001#16 = .bitw .r2 .r1 .r1 := by decide
theorem test_decode_load : decode 0b1100_0011_0001_0000#16 = .load .r3 .r1 .r0 := by decide
theorem test_decode_store : decode 0b1101_0010_0011_0000#16 = .store .r2 .r3 .r0 := by decide
theorem test_decode_caiz : decode 0b1110_1111_0001_0010#16 = .caiz .r15 .r1 2#4 := by decide
theorem test_decode_caif : decode 0b1111_1111_0011_1100#16 = .caif .r15 .r3 0xC#4 := by decide
theorem test_decode_nop : decode 0b0000_0000_0000_0000#16 = .nop := by decide
theorem test_decode_iret : decode 0b1001_1111_0000_0000#16 = .iret := by decide
theorem test_decode_r8_r12_r13 : decode 0x18CD#16 = .nand .r8 .r12 .r13 := by decide
theorem test_decodeTableWord_store : decodeTableWord 16 0xD000 = some (.store .r0 .r0 .r0) := by decide

/-- E16. -/
theorem test_asm_caif : asmText .sign (decode 0xFF3C#16) = "CAIF R15, R3, -4" := by decide
/-- E14. -/
theorem test_asm_store : asmText .sign (decode 0xD230#16) = "STORE R2, [R3+R0]" := by decide

/-! ### Logic (section 2.2) -/

/-- L1. -/
theorem test_and : after 0x0312 (two 0x1F0F0 0x0FF00) (·.lo[3]) = some 0x0F000#17 := by decide
/-- L2. -/
theorem test_nand_sets_flag : after 0x1312 (two 0 0) (·.lo[3]) = some 0x1FFFF#17 := by decide
/-- L2 with LOGIC_WIDTH = 16. -/
theorem test_nand_w16 :
    after 0x1312 (withCfg { defaultParams with logicWidth := .w16 } (two 0 0)) (·.lo[3]) = some 0x0FFFF#17 := by decide
/-- L5. -/
theorem test_or : after 0x2312 (two 0x10000 0x00001) (·.lo[3]) = some 0x10001#17 := by decide
/-- L1. -/
theorem test_xor : after 0x3312 (two 0x1F0F0 0x0FF00) (·.lo[3]) = some 0x10FF0#17 := by decide
/-- L6. -/
theorem test_nop_keeps_flag :
    after 0x0000 (put .r0 0x10000 State.reset) (fun t => (t.lo[0], t.pc)) = some (0x10000#17, 1#16) := by decide

/-! ### Arithmetic, BITW (sections 2.3, 2.6) -/

/-- A1. -/
theorem test_add_carry : after 0x4312 (two 0x0FFFF 0x00001) (·.lo[3]) = some 0x10000#17 := by decide
/-- A6. -/
theorem test_add_ignores_flags : after 0x4312 (two 0x10001 0x10002) (·.lo[3]) = some 0x00003#17 := by decide
/-- A8. -/
theorem test_sub_borrow : after 0x5312 (two 0x00003 0x00005) (·.lo[3]) = some 0x1FFFE#17 := by decide
/-- A14. -/
theorem test_sub_ignores_flags : after 0x5312 (two 0x1FFFF 0x0FFFF) (·.lo[3]) = some 0x00000#17 := by decide
/-- B6. -/
theorem test_bitw : after 0xB312 (two 0x0FF00 0x00FF0) (·.lo[3]) = some 0x0000C#17 := by decide
/-- B8. -/
theorem test_bitw_flag_alone : after 0xB312 (two 0x10000 0x1FFFF) (·.lo[3]) = some 0x00000#17 := by decide

/-! ### Shifts (section 2.4) -/

/-- H2. -/
theorem test_shr_arithmetic : after 0x6312 (two 0x18000 0x00004) (·.lo[3]) = some 0x1F800#17 := by decide
/-- R241: with SHR_FILL = flag and SHR_FLAG_SOURCE = rs2 the 17-bit arithmetic shift of a value with flag 0 shifts zeros in. -/
theorem test_shr_fill_is_bit16 :
    after 0x6312 (withCfg { defaultParams with shrFill := .flag, shrFlagSource := .rs2 } (two 0x08000 0x10004)) (·.lo[3])
      = some 0x00800#17 := by decide
/-- H14. -/
theorem test_shl : after 0x7312 (two 0x04001 0x00002) (·.lo[3]) = some 0x10004#17 := by decide
/-- H18. -/
theorem test_shl_drops_flag : after 0x7312 (two 0x10001 0x00001) (·.lo[3]) = some 0x00002#17 := by decide

/-! ### Immediates (section 2.5) -/

/-- I2. -/
theorem test_ali_carry : after 0x8120 (two 0x0FFF0 0) (·.lo[1]) = some 0x10010#17 := by decide
/-- I4. -/
theorem test_ali_zero_extends : after 0x81FF (two 0x0FFFF 0) (·.lo[1]) = some 0x100FE#17 := by decide
/-- I6. -/
theorem test_sui : after 0x91AB (two 0x15555 0) (·.lo[1]) = some 0x0AB00#17 := by decide
/-- I6 with SUI_LOW = keep. -/
theorem test_sui_keep :
    after 0x91AB (withCfg { defaultParams with suiLow := .keep } (two 0x15555 0)) (·.lo[1]) = some 0x0AB55#17 := by
  decide
/-- I13. -/
theorem test_addi_negative : after 0xA218 (two 0x00003 0) (·.lo[2]) = some 0x1FFFB#17 := by decide
/-- R253: "ADDI R13, R13, 1 leaves R13 one greater than before". -/
theorem test_addi_r13_write_wins : after 0xADD1 (put .r13 3 State.reset) (·.r13) = some 4#17 := by decide

/-! ### Memory (section 2.7) -/

/-- M2. -/
theorem test_load_wraps :
    after 0xC312 ((two 0x0FFFF 0x00021).withDmem [(0x20, 0xBEEF#16)]) (·.lo[3]) = some 0x0BEEF#17 := by decide
/-- M5. -/
theorem test_load_r15 :
    after 0xCF10 { (two 0x20 0).withDmem [(0x20, 0x1234#16)] with pc := 0x50, r15f := true }
      (fun t => (t.pc, t.r15f)) = some (0x1234#16, false) := by decide
/-- M8. -/
theorem test_store_wraps :
    after 0xD232 (put .r3 0x08000 (two 0 0x0ABCD)) (·.dmem) = some [(0x2BCD, 0xABCD#16)] := by decide
/-- M11. -/
theorem test_store_leds :
    after 0xD210 (two 0x0FFFF 0x000A5) (fun t => (t.events, t.dmem))
      = some ([.write 0xFFFF#16 0x00A5#16], []) := by decide

/-! ### Conditional adds (section 2.8) -/

/-- C2. -/
theorem test_caiz_ignores_flag : after 0xE213 (two 0x10000 0x00010) (·.lo[2]) = some 0x00013#17 := by decide
/-- C12. -/
theorem test_caiz_not_taken :
    after 0xEF12 { two 1 0 with pc := 5, r15f := true } (fun t => (t.pc, t.r15f)) = some (6#16, true) := by decide
/-- C13. -/
theorem test_caif_backward :
    after 0xFF3C { put .r3 0x1FFFE State.reset with pc := 0x10 } (fun t => (t.pc, t.r15f))
      = some (0x000C#16, false) := by decide
/-- C9. -/
theorem test_caif_not_taken : after 0xF213 (two 0x0FFFF 0x00010) (·.lo[2]) = some 0x00010#17 := by decide

/-! ### R13, R14, R15 (10_state.md R137 to R141) -/

/-- R139: both positions see the value before the one decrement. -/
theorem test_r13_decrements_once :
    after 0x41DD (put .r13 3 State.reset) (fun t => (t.lo[1], t.r13)) = some (6#17, 2#17) := by decide
/-- R139: 0x0000 becomes 0xFFFF, the flag stays. -/
theorem test_r13_wraps_keeps_flag : after 0x41D0 (put .r13 0x10000 State.reset) (·.r13) = some 0x1FFFF#17 := by decide
/-- R135 with R13_READ = after: both positions of CAIZ R13, R13, 5 receive the decremented value. -/
theorem test_r13_after_same_value_in_both_positions :
    after 0xEDD5 (withCfg { defaultParams with r13Read := .after } (put .r13 1 State.reset)) (·.r13) = some 5#17 := by
  decide
/-- R140: a STORE of R14 pops. -/
theorem test_store_r14_pops :
    after 0xDE10 { stacked #v[7, 0x1ABCD, 0, 0, 0, 0, 0, 0] 2 with lo := #v[0, 0x40, 0, 0, 0, 0, 0, 0] }
      (fun t => (t.dmem, t.sp)) = some ([(0x40, 0xABCD#16)], 1) := by decide
/-- R140: ALI R14 replaces the top. -/
theorem test_ali_r14_modifies_top :
    after 0x8E01 (stacked #v[7, 9, 0, 0, 0, 0, 0, 0] 2) (fun t => (t.stk[1], t.stk[0], t.sp))
      = some (10#17, 7#17, 2) := by decide

/-! ### Interrupts, reset, front panel (60_exceptions.md, 70_reset_and_hazards.md) -/

/-- R308, R310: both lines request, IRQ1 is taken. -/
theorem test_irq1_wins :
    stepped { two 5 0 with pc := 0x123, env := [.cpu true true] } (fun t => (t.pc, t.retPc, t.sh[1], t.isrActive))
      = some (0x3FE0#16, 0x123#16, 5#17, true) := by decide
/-- R310: IRQ2 alone. -/
theorem test_irq2_vector :
    stepped { two 5 0 with env := [.cpu false true] } (·.pc) = some 0x3FC0#16 := by decide
/-- The example of R315. -/
theorem test_iret_returns :
    after 0x9F00 { State.reset with pc := 0x3FE4, retPc := 0x123, isrActive := true, r15f := true,
                                    sh := #v[0, 0x1111, 0, 0, 0, 0, 0, 0] }
      (fun t => (t.pc, t.lo[1], t.isrActive, t.r15f)) = some (0x123#16, 0x1111#17, false, true) := by decide
/-- R199: outside an ISR the word is SUI R15, 0x00. -/
theorem test_iret_outside_isr :
    after 0x9F00 { State.reset with pc := 0x77, r15f := true } (fun t => (t.pc, t.r15f)) = some (0#16, false) := by
  decide
/-- R142, R382: reset restores R12 and keeps IMEM. -/
theorem test_btnr :
    stepped { State.reset with hi := #v[9, 9, 9, 9, 9], imem := [(3, 7#16)], env := [.host .btnr] }
      (fun t => (t.hi[4], t.hi[0], t.imem)) = some (1#17, 0#17, [(3, 7#16)]) := by decide
/-- R401: Deposit writes and increments. -/
theorem test_deposit :
    stepped { State.reset with altair := ⟨true, .imem, 0x10, none⟩, switches := 0xAFF0, env := [.host .btnd] }
      (fun t => (t.imem, t.altair.addr)) = some ([(0x10, 0xAFF0#16)], 0x11#16) := by decide
/-- R401: Deposit with DMEM/IO selected at 0xFFFF is one device write. -/
theorem test_deposit_io :
    stepped { State.reset with altair := ⟨true, .data, 0xFFFF, none⟩, switches := 0xA5, env := [.host .btnd] }
      (fun t => (t.events, t.dmem, t.altair.addr)) = some ([.write 0xFFFF#16 0xA5#16], [], 0#16) := by decide
/-- R165: a fetch at or above IMEM_WORDS stops. -/
theorem test_fetch_outside_imem :
    step { State.reset with cfg := { defaultParams with imemWords := 0x4000 }, pc := 0x4000 }
      = .fault .ifetchOutOfRange := rfl

/-! ### Witnesses: a state and operands that meet a statement's hypotheses, one per clause -/

theorem witness_DecodeEncodeRoundTrip : (Instr.caif .r15 .r3 0xC#4).wellFormed = true := by decide

theorem witness_OperandReadValues :
    Reg.r13 ∈ [Reg.r13] ∧ Reg.r13 ∉ [Reg.r1] ∧ Reg.r12 ≠ .r13 ∧
    State.reset.cfg.r13Read = .before ∧
    (withCfg { defaultParams with r13Read := .after } State.reset).cfg.r13Read = .after ∧
    (stacked (Vector.replicate 8 0) 8).sp.val = (7 : Fin 8).val + 1 := by decide

theorem witness_EveryInstructionCommits :
    leavesIsr .iret State.reset = false ∧ leavesIsr (.sui .r15 1#8) { State.reset with isrActive := true } = false := by
  decide

theorem witness_R13DecrementsOnSourceUse :
    destReg (.store .r13 .r13 .r0) State.reset ≠ some .r13 ∧ .r13 ∈ decPositions (.store .r13 .r13 .r0) ∧
    destReg (.ali .r1 0xDD#8) State.reset ≠ some .r13 ∧ .r13 ∉ decPositions (.ali .r1 0xDD#8) := by decide

theorem witness_PcAdvancesUnlessR15Written :
    leavesIsr (.store .r15 .r1 .r0) State.reset = false ∧
    destReg (.store .r15 .r1 .r0) { State.reset with pc := 0xFFFF } ≠ some .r15 := by decide

theorem witness_PushThenPopRestores :
    isPlain .r0 = true ∧ isPlain .r12 = true ∧
    (stacked (Vector.replicate 8 0) 7).sp ≠ 8 ∧ (stacked (Vector.replicate 8 0) 7).cfg.logicWidth = .w17 := by decide

theorem witness_CallThenReturnComesBack :
    isPlain .r8 = true ∧
    (stacked (Vector.replicate 8 0) 7).sp ≠ 8 ∧ (stacked (Vector.replicate 8 0) 7).cfg.pcReadOffset = 0 := by decide

theorem witness_JumpToSelfStays : State.reset.cfg.pcReadOffset = 0 := by decide

theorem witness_NopChangesOnlyPc : State.reset.cfg.logicWidth = .w17 := by decide

theorem witness_BitwWritesHighestCommonBit :
    (dataOf (srcVal (two 0xF0 0xF0F) .r1) &&& dataOf (srcVal (two 0xF0 0xF0F) .r2)) = 0 ∧
    (dataOf (srcVal (two 0x8000 0xFFFF) .r1) &&& dataOf (srcVal (two 0x8000 0xFFFF) .r2)).getLsbD 15 = true := by decide

theorem witness_BitwWritesHighestCommonBit_above (j : Nat) (h : 15 < j) : (0x8000#16).getLsbD j = false :=
  BitVec.getLsbD_of_ge _ _ (by omega)

theorem witness_ShiftAmountByMode : (dataOf 0x1000F#17).toNat ≤ 15 ∧ 16 ≤ (dataOf 0x10#17).toNat := by decide

theorem witness_ShrShiftsByFlag :
    (0 < 16 ∧ 0 + shiftAmount .unset 15#17 ≤ 15) ∧ (15 < 16 ∧ ¬ 15 + shiftAmount .unset 1#17 ≤ 15) := by decide

theorem witness_ShrLogicalWhenFlagClear :
    shrMode (withCfg { defaultParams with shrFlagSource := .rd } (two 0x18000 4)) .r3 .r1 .r2 = false := by decide

theorem witness_ShlShiftsSeventeenBits :
    shiftAmount .full 0#17 = 0 ∧ shiftAmount .full 1#17 = 1 ∧ shiftAmount .full 16#17 = 16 ∧
    shiftAmount .full 17#17 = 17 := by decide

theorem witness_AliAddsToRd :
    State.reset.cfg.imm8Ext = .zero ∧
    (withCfg { defaultParams with imm8Ext := .sign } State.reset).cfg.imm8Ext = .sign := by decide

theorem witness_SuiSetsUpperByte :
    State.reset.cfg.suiLow = .clear ∧
    (withCfg { defaultParams with suiLow := .keep } State.reset).cfg.suiLow = .keep := by decide

theorem witness_AddiAddsImmediate :
    (7#4).toNat < 8 ∧ (State.reset.cfg.imm4Ext = .sign ∧ 8 ≤ (8#4).toNat) ∧
    (withCfg { defaultParams with imm4Ext := .zero } State.reset).cfg.imm4Ext = .zero := by decide

theorem witness_SuiThenAliLoadsConstant :
    Reg.r14 ≠ .r15 ∧ (stacked (Vector.replicate 8 0) 7).sp ≠ 8 ∧ State.reset.cfg.suiLow = .clear ∧
    State.reset.cfg.imm8Ext = .zero := by decide

theorem witness_CaizAddsWhenZero :
    (dataOf (srcVal (two 0x10000 0) .r1) = 0 ∧ ((two 0x10000 0).cfg.zeroTestWidth = .w17 →
      flagOf (srcVal (two 0x10000 0) .r1) = false)) ∧
    ¬ dataOf (srcVal (two 1 0) .r1) = 0 := by decide

theorem witness_CaifAddsWhenFlag :
    flagOf (srcVal (two 0x10000 0) .r1) = true ∧ flagOf (srcVal (two 0x0FFFF 0) .r1) = false := by decide

/-- A data RAM of 0x4000 words. -/
def smallRam : Params := { defaultParams with dmemWords := 0x4000 }

theorem witness_DataAddressMap :
    smallRam.dmemWords ≤ 0x8000 ∧ dataRegion smallRam 0x3FFF = .ram ∧ dataRegion smallRam 0x4000 = .hole ∧
    dataRegion smallRam 0x7FFF = .hole ∧ dataRegion smallRam 0x8000 = .ioUnmapped ∧
    dataRegion smallRam 0xFFAF = .ioUnmapped ∧ dataRegion smallRam 0xFFB0 = .device ⟨.sawFreq, 0xFFB0, .rw⟩ ∧
    dataRegion smallRam 0xFFD8 = .ioUnmapped ∧ dataRegion smallRam 0xFFFF = .device ⟨.leds, 0xFFFF, .rw⟩ := by decide

theorem witness_LoadReadsRam :
    (0x7FFF#16).toNat = ((dataOf (srcVal (two 0xFFFF 0x8000) .r1)).toNat +
      (dataOf (srcVal (two 0xFFFF 0x8000) .r2)).toNat) % 65536 ∧
    (0x7FFF#16).toNat < (two 0xFFFF 0x8000).cfg.dmemWords ∧ (0x7FFF#16).toNat < 0x8000 := by decide

theorem witness_LoadReadsDevice :
    0x8000 ≤ (effAddr (two 0x8000 0) .r1 .r2).toNat ∧ effAddr (two 0xFFFE 0) .r1 .r2 = 0xFFFE#16 ∧
    dataRegion defaultParams (effAddr (two 0xFFE1 0) .r1 .r2) = .device ⟨.rxData, 0xFFE1, .r⟩ ∧
    dataRegion defaultParams (effAddr (two 0xFFF0 0) .r1 .r2) = .ioUnmapped ∧ (two 0xFFE1 0).devIn = [] ∧
    DevReg.rxData ≠ .switches ∧ ((two 0xFFE1 0).withDevIn [0x41]).devIn = 0x41 :: [] := by decide

theorem witness_LoadFromHoleGoesOn :
    dataRegion smallRam (effAddr (withCfg smallRam (two 0x4000 0)) .r1 .r2) = .hole := by decide

theorem witness_StoreWritesRam :
    ((two 0xFFFF 1).withDmem [(0, 5#16), (9, 6#16)]).dmem.wf ∧
    (0x0000#16).toNat = ((dataOf (srcVal (two 0xFFFF 1) .r1)).toNat +
      (dataOf (srcVal (two 0xFFFF 1) .r2)).toNat) % 65536 ∧
    (0x0000#16).toNat < (two 0xFFFF 1).cfg.dmemWords ∧ (0x0000#16).toNat < 0x8000 := by decide

theorem witness_StoreToIoIsOneEvent :
    (0x8000 ≤ (effAddr (two 0xFFFF 0) .r1 .r2).toNat ∧ effAddr (two 0xFFFF 0) .r1 .r2 = 0xFFFF#16 ∧
      (two 0xFFFF 0).altair.on = false) ∧
    (0x8000 ≤ (effAddr (two 0x8000 0) .r1 .r2).toNat ∧ effAddr (two 0x8000 0) .r1 .r2 ≠ 0xFFFF#16) := by decide

theorem witness_StoreToHoleHasNoEffect :
    dataRegion smallRam (effAddr (withCfg smallRam (two 0x7FFF 0)) .r1 .r2) = .hole := by decide

theorem witness_StoreThenLoadReturnsData :
    isPlain .r12 = true ∧ isPlain .r8 = true ∧ isPlain .r1 = true ∧ isPlain .r2 = true ∧
    0x7FFF#16 = dataOf (destVal (two 0x7FFE 1) .r1) + dataOf (destVal (two 0x7FFE 1) .r2) ∧
    (0x7FFF#16).toNat < (two 0x7FFE 1).cfg.dmemWords ∧ (0x7FFF#16).toNat < 0x8000 := by decide

theorem witness_OnlyStoreWritesMemory (rd rs1 rs2 : Reg) :
    Instr.nop ≠ .store rd rs1 rs2 ∧ Instr.nop ≠ .load rd rs1 rs2 := ⟨nofun, nofun⟩

/-- A state whose next step is a LOAD from RX_DATA. -/
theorem witness_EventsGrowInOrder :
    after 0xC310 ((two 0xFFE1 0).withDevIn [0x41]) (·.events) = some [.read 0xFFE1#16 0x41#16] := by decide

theorem witness_IretRestoresContext :
    ({ State.reset with isrActive := true } : State).isrActive = true ∧ defaultParams.shadowMode = .copy ∧
    ({ defaultParams with shadowMode := .bank } : Params).shadowMode = .bank := by decide

theorem witness_IretOutsideIsrIsSui : State.reset.isrActive = false ∧ State.reset.cfg.suiLow = .clear := by decide

theorem witness_InterruptEntrySavesContext :
    cpuTurn { State.reset with env := [.cpu false true] } false true [] ∧
    ({ State.reset with env := [.cpu false true] } : State).altair.on = false ∧
    ({ State.reset with env := [.cpu false true] } : State).isrActive = false ∧ (false || true) = true :=
  ⟨.inl rfl, rfl, rfl, rfl⟩

theorem witness_NoNestedInterrupt :
    cpuTurn { State.reset with isrActive := true, env := [.cpu true true] } true true [] ∧
    State.reset.altair.on = false ∧ ({ State.reset with isrActive := true } : State).isrActive = true ∧
    State.reset.pc.toNat < State.reset.cfg.imemWords := ⟨.inl rfl, by decide⟩

theorem witness_InterruptThenIretResumes : State.reset.isrActive = false := by decide

theorem witness_IsrEndsOnlyByIretOrReset :
    ({ State.reset with isrActive := true } : State).isrActive = true ∧
    after 0x9F00 { State.reset with isrActive := true } (·.isrActive) = some false ∧
    stepped { State.reset with isrActive := true, env := [.host .btnr] } (·.isrActive) = some false := by decide

theorem witness_ShadowsUnobservedOutsideIsr : State.reset.isrActive = false := by decide

theorem witness_StepRunsDecodedInstruction :
    cpuTurn { State.reset with imem := [(0, 0xAFF0#16)], env := [.cpu false false] } false false [] ∧
    State.reset.altair.on = false ∧ irqTaken State.reset false false = none ∧
    State.reset.pc.toNat < State.reset.cfg.imemWords ∧
    decode (imemWord { State.reset with imem := [(0, 0xAFF0#16)] } 0) = .addi .r15 .r15 0#4 :=
  ⟨.inl rfl, by decide⟩

theorem witness_StepStopsOnlyOutsideImem :
    cpuTurn { State.reset with cfg := { defaultParams with imemWords := 0x4000 }, pc := 0x4000 } false false [] ∧
    irqTaken State.reset false false = none ∧ ({ defaultParams with imemWords := 0x4000 } : Params).imemWords
      ≤ (0x4000#16).toNat := ⟨.inr ⟨rfl, rfl, rfl, rfl⟩, by decide⟩

/-- A state with the invariant whose next step is a STORE to RAM. -/
theorem witness_StepKeepsInvariant :
    StateInv ((two 0x40 7).withFetchWord 16 0xD210) ∧
    after 0xD210 (two 0x40 7) (·.dmem) = some [(0x40, 7#16)] := ⟨by unfold StateInv; decide, by decide⟩

theorem witness_StepKeepsParameters : after 0xD210 (two 0x40 7) (·.cfg) = some defaultParams := by decide

theorem witness_ResetButtonResetsProcessor :
    ({ State.reset with env := [.host .btnr] } : State).env = .host .btnr :: [] := rfl

theorem witness_AltairModeHaltsCpu :
    cpuTurn { State.reset with altair := ⟨true, .imem, 0, none⟩ } false false [] ∧
    ({ State.reset with altair := ⟨true, .imem, 0, none⟩ } : State).altair.on = true :=
  ⟨.inr ⟨rfl, rfl, rfl, rfl⟩, rfl⟩

/-- A state in Altair mode with the memory `sel` and the address 0x10, about to do `a`. -/
def panel (sel : MemSel) (a : HostAction) : State :=
  { State.reset with altair := ⟨true, sel, 0x10, none⟩, imem := [(0x10, 1#16)], dmem := [(0x10, 2#16)], env := [.host a] }

theorem witness_DepositWritesImem :
    (panel .imem .btnd).env = .host .btnd :: [] ∧ (panel .imem .btnd).altair.on = true ∧
    (panel .imem .btnd).altair.sel = .imem ∧
    (panel .imem .btnd).altair.addr.toNat < (panel .imem .btnd).cfg.imemWords ∧ (panel .imem .btnd).imem.wf := by decide

theorem witness_DepositWritesDmem :
    (panel .data .btnd).env = .host .btnd :: [] ∧ (panel .data .btnd).altair.on = true ∧
    (panel .data .btnd).altair.sel = .data ∧ (panel .data .btnd).dmem.wf ∧
    dataRegion (panel .data .btnd).cfg (panel .data .btnd).altair.addr = .ram ∧
    dataRegion smallRam ({ (panel .data .btnd).altair with addr := 0x4000 } : Altair).addr = .hole ∧
    0x8000 ≤ ({ (panel .data .btnd).altair with addr := 0x8000 } : Altair).addr.toNat := by decide

theorem witness_ExamineShowsWord :
    (panel .imem .btnu).env = .host .btnu :: [] ∧ (panel .imem .btnu).altair.on = true ∧
    ((panel .imem .btnu).altair.sel = .imem ∧ (panel .imem .btnu).switches.toNat < (panel .imem .btnu).cfg.imemWords) ∧
    ((panel .data .btnu).altair.sel = .data ∧ dataRegion defaultParams (panel .data .btnu).switches = .ram) ∧
    0x8000 ≤ ((panel .data .btnu).withSwitches 0x8000).switches.toNat := by decide

theorem witness_AltairButtons :
    (({ State.reset with env := [.host .btnlShort] } : State).env = .host .btnlShort :: [] ∧
      State.reset.altair.on = false) ∧
    ((panel .data .btnlShort).env = .host .btnlShort :: [] ∧ (panel .data .btnlShort).altair.on = true) ∧
    ((panel .data .btnlLong).env = .host .btnlLong :: [] ∧ (panel .data .btnlLong).altair.on = true) := by decide

theorem witness_SpeedButtonChangesOnlySpeed :
    ({ State.reset with env := [.host .btnc] } : State).env = .host .btnc :: [] := rfl

theorem witness_SetSwitchesChangesOnlySwitches :
    ({ two 0xFFFE 0 with env := [.host (.setSwitches 0x1234)] } : State).env = .host (.setSwitches 0x1234) :: [] ∧
    effAddr { two 0xFFFE 0 with env := [.host (.setSwitches 0x1234)] } .r1 .r2 = 0xFFFE#16 := by decide

theorem witness_DisplayShowsState :
    State.reset.altair.on = false ∧ (panel .data .btnu).altair.on = true := by decide

end Sys2Proof.Tests
end

section
/-! SUPPORT. The values of SHR, ALI, ADDI and the condition of CAIZ as arithmetic and bit by bit (spec/42_shift.md R241,
spec/43_immediate.md R251, R253, spec/46_conditional.md R276). -/

namespace Sys2Proof.Machine

/-! ### 17-bit sums -/

/-- An addend below 2^16: the flag is the carry. -/
theorem zext17_add_carry (d : Word16) {k : RegVal} (hk : k.toNat < 65536) :
    (dataOf (zext17 d + k)).toNat = (d.toNat + k.toNat) % 65536 ∧
    flagOf (zext17 d + k) = decide (65536 ≤ d.toNat + k.toNat) := by
  have hd := d.isLt
  rw [dataOf_toNat, flagOf_eq_decide, BitVec.toNat_add, zext17_toNat, decide_eq_decide]
  omega

/-- An addend that is `-m` modulo 2^17: the flag is the borrow. -/
theorem zext17_add_borrow (d : Word16) {k : RegVal} {m : Nat} (h0 : 0 < m) (hm : m ≤ 65536)
    (hk : k.toNat = 131072 - m) :
    (dataOf (zext17 d + k)).toNat = (d.toNat + 65536 - m) % 65536 ∧
    flagOf (zext17 d + k) = decide (d.toNat < m) := by
  have hd := d.isLt
  rw [dataOf_toNat, flagOf_eq_decide, BitVec.toNat_add, zext17_toNat, decide_eq_decide]
  omega

/-- Sign extension to 17 bits as a number (R110). -/
theorem signExtend17_toNat {w : Nat} (x : BitVec w) (hw : w ≤ 17) :
    (x.signExtend 17).toNat = x.toNat + if 2 ^ (w - 1) ≤ x.toNat then 131072 - 2 ^ w else 0 := by
  rw [BitVec.toNat_signExtend, BitVec.toNat_setWidth_of_le hw, BitVec.msb_eq_decide]
  simp

theorem imm8Addend_zero_toNat (imm8 : BitVec 8) : (imm8Addend .zero imm8).toNat = imm8.toNat :=
  BitVec.toNat_setWidth_of_le (by decide)

theorem imm8Addend_sign_toNat (imm8 : BitVec 8) :
    (imm8Addend .sign imm8).toNat = imm8.toNat + if imm8.toNat < 128 then 0 else 131072 - 256 := by
  rw [imm8Addend, signExtend17_toNat imm8 (by decide)]
  split <;> split <;> omega

/-- imm4 as it stands: zero-extended, or sign-extended with its top bit clear. -/
theorem imm4Addend_toNat_nonneg {ext : Ext} {imm4 : BitVec 4} (h : ext = .zero ∨ imm4.toNat < 8) :
    (imm4Addend ext imm4).toNat = imm4.toNat := by
  cases ext with
  | zero => exact BitVec.toNat_setWidth_of_le (by decide)
  | sign =>
    have hk : ¬ 2 ^ (4 - 1) ≤ imm4.toNat := by simpa using h
    rw [imm4Addend, signExtend17_toNat imm4 (by decide), if_neg hk, Nat.add_zero]

/-- imm4 sign-extended with its top bit set. -/
theorem imm4Addend_toNat_neg {imm4 : BitVec 4} (h : 8 ≤ imm4.toNat) :
    (imm4Addend .sign imm4).toNat = 131072 - (16 - imm4.toNat) := by
  have := imm4.isLt
  have hk : 2 ^ (4 - 1) ≤ imm4.toNat := h
  rw [imm4Addend, signExtend17_toNat imm4 (by decide), if_pos hk]
  omega

theorem aliVal_zero (t : RegVal) (imm8 : BitVec 8) :
    (dataOf (aliVal .zero t imm8)).toNat = ((dataOf t).toNat + imm8.toNat) % 65536 ∧
    flagOf (aliVal .zero t imm8) = decide (65536 ≤ (dataOf t).toNat + imm8.toNat) := by
  have hk := imm8Addend_zero_toNat imm8
  have := imm8.isLt
  simpa only [aliVal, hk] using zext17_add_carry (dataOf t) (k := imm8Addend .zero imm8) (by omega)

theorem aliVal_sign_toNat (t : RegVal) (imm8 : BitVec 8) :
    (aliVal .sign t imm8).toNat =
      ((dataOf t).toNat + imm8.toNat + if imm8.toNat < 128 then 0 else 131072 - 256) % 131072 := by
  rw [aliVal, BitVec.toNat_add, zext17_toNat, imm8Addend_sign_toNat, Nat.add_assoc]

theorem addiVal_nonneg {ext : Ext} (a : RegVal) {imm4 : BitVec 4} (h : ext = .zero ∨ imm4.toNat < 8) :
    (dataOf (addiVal ext a imm4)).toNat = ((dataOf a).toNat + imm4.toNat) % 65536 ∧
    flagOf (addiVal ext a imm4) = decide (65536 ≤ (dataOf a).toNat + imm4.toNat) := by
  have hk := imm4Addend_toNat_nonneg h
  have := imm4.isLt
  simpa only [addiVal, hk] using zext17_add_carry (dataOf a) (k := imm4Addend ext imm4) (by omega)

theorem addiVal_neg (a : RegVal) {imm4 : BitVec 4} (h : 8 ≤ imm4.toNat) :
    (dataOf (addiVal .sign a imm4)).toNat = ((dataOf a).toNat + 65536 - (16 - imm4.toNat)) % 65536 ∧
    flagOf (addiVal .sign a imm4) = decide ((dataOf a).toNat < 16 - imm4.toNat) := by
  have := imm4.isLt
  exact zext17_add_borrow (dataOf a) (by omega) (by omega) (imm4Addend_toNat_neg h)

/-! ### The right shift -/

/-- A logical shift is the case of the fill 0. -/
@[simp] theorem shiftRightFill_false (d : Word16) (n : Nat) : shiftRightFill d n false = d >>> n := by
  simp [shiftRightFill]

theorem shiftRightFill_getLsbD (d : Word16) (n : Nat) (fill : Bool) {i : Nat} (hi : i < 16) :
    (shiftRightFill d n fill).getLsbD i = if i + n ≤ 15 then d.getLsbD (i + n) else fill := by
  rw [Nat.add_comm i n]
  by_cases h : n + i ≤ 15
  · have hn : n + i < 16 := by omega
    cases fill <;> simp [shiftRightFill, h, hi, hn, -BitVec.reduceAllOnes]
  · have hn : 16 ≤ n + i := by omega
    cases fill <;> simp [shiftRightFill, h, hi, BitVec.getLsbD_of_ge _ _ hn]

@[simp] theorem flagOf_shrVal (fill : ShrFill) (mode : Bool) (a : RegVal) (n : Nat) :
    flagOf (shrVal fill mode a n) = flagOf a := flagOf_mkVal _ _

@[simp] theorem dataOf_shrVal (fill : ShrFill) (mode : Bool) (a : RegVal) (n : Nat) :
    dataOf (shrVal fill mode a n) = shiftRightFill (dataOf a) n (shrFillBit fill mode a) := dataOf_mkVal _ _

/-- With the consulted flag 0 nothing but 0 is shifted in, whatever `SHR_FILL` says. -/
@[simp] theorem shrFillBit_logical (fill : ShrFill) (a : RegVal) : shrFillBit fill false a = false := rfl

theorem shrReads_eq (src : ShrFlagSource) (rd rs1 rs2 : Reg) :
    shrReads src rd rs1 rs2 = if src = .rd then [rs1, rs2, rd] else [rs1, rs2] := by
  cases src <;> rfl

/-! ### The condition of CAIZ -/

theorem zeroCond_iff (width : ZeroTestWidth) (c : RegVal) :
    zeroCond width c = true ↔ dataOf c = 0 ∧ (width = .w17 → flagOf c = false) := by
  cases width with
  | w16 => simp [zeroCond]
  | w17 =>
    have hz : c = 0 ↔ dataOf c = 0 ∧ flagOf c = false :=
      ⟨by rintro rfl; decide, fun ⟨hd, hf⟩ => regVal_ext hf hd⟩
    rw [zeroCond, beq_iff_eq, hz]
    simp

/-! ### Instructions as commits -/

theorem exec_shr (rd rs1 rs2 : Reg) (s : State) :
    exec (.shr rd rs1 rs2) s = .next (commit (shrReads s.cfg.shrFlagSource rd rs1 rs2) [rs1, rs2]
      (some (rd, shrVal s.cfg.shrFill (shrMode s rd rs1 rs2) (srcVal s rs1)
        (shiftAmount s.cfg.shiftAmountMode (srcVal s rs2)))) s) := rfl

theorem exec_ali (rd : Reg) (imm8 : BitVec 8) (s : State) :
    exec (.ali rd imm8) s = .next (commit [rd] [] (some (rd, aliVal s.cfg.imm8Ext (destVal s rd) imm8)) s) := rfl

theorem exec_caiz_taken {rd rs1 : Reg} {s : State} (h : zeroCond s.cfg.zeroTestWidth (srcVal s rs1) = true)
    (imm4 : BitVec 4) :
    exec (.caiz rd rs1 imm4) s =
      .next (commit [rs1, rd] [rs1] (some (rd, addiVal s.cfg.imm4Ext (rdVal [rs1] s rd) imm4)) s) := by
  simp [exec, execCaiz, conditionalAdd, h]

theorem exec_caiz_not_taken {rs1 : Reg} {s : State} (h : ¬ zeroCond s.cfg.zeroTestWidth (srcVal s rs1) = true)
    (rd : Reg) (imm4 : BitVec 4) :
    exec (.caiz rd rs1 imm4) s = .next (commit [rs1] [rs1] none s) := by
  simp [exec, execCaiz, conditionalAdd, h]

end Sys2Proof.Machine
end

section
/-! SUPPORT. What one step can do to the parameters, the two memories and the record of device accesses, said once; the
invariant and the constancy of the parameters are read off from it (spec/20_memory.md R166 to R168, R175,
spec/70_reset_and_hazards.md R382). -/

namespace Sys2Proof.Machine

/-- The part of the state that the invariant speaks of. -/
structure Storage where
  cfg : Params
  imem : Memory
  dmem : Memory
  events : List DevEvent

def storage (s : State) : Storage := ⟨s.cfg, s.imem, s.dmem, s.events⟩

/-- `StateInv` as a property of the storage alone. -/
def StorageInv (m : Storage) : Prop :=
  paramsOk m.cfg = true ∧
  m.imem.wf ∧ (∀ c ∈ m.imem, c.1 < m.cfg.imemWords) ∧
  m.dmem.wf ∧ (∀ c ∈ m.dmem, c.1 < m.cfg.dmemWords) ∧
  (∀ e ∈ m.events, 0x8000 ≤ (eventAddr e).toNat)

theorem stateInv_iff (s : State) : StateInv s ↔ StorageInv (storage s) := Iff.rfl

/-- All that one step can do to it: nothing, one word of RAM or of IMEM written, one device accessed, or RAM reset. -/
inductive StorageStep : Storage → Storage → Prop where
  | same (m : Storage) : StorageStep m m
  | writeRam {m : Storage} {a : Word16} (ha : dataRegion m.cfg a = .ram) (v : Word16) :
      StorageStep m { m with dmem := memInsert m.dmem a.toNat v }
  | writeImem {m : Storage} {a : Word16} (ha : a.toNat < m.cfg.imemWords) (v : Word16) :
      StorageStep m { m with imem := memInsert m.imem a.toNat v }
  | access {m : Storage} {e : DevEvent} (he : 0x8000 ≤ (eventAddr e).toNat) :
      StorageStep m { m with events := m.events ++ [e] }
  | resetRam (m : Storage) : StorageStep m { m with dmem := [] }

theorem storageStep_cfg {m m' : Storage} (h : StorageStep m m') : m'.cfg = m.cfg := by
  cases h <;> rfl

theorem storageInv_of_storageStep {m m' : Storage} (h : StorageStep m m') (hm : StorageInv m) : StorageInv m' := by
  obtain ⟨hp, hi, hib, hd, hdb, he⟩ := hm
  cases h with
  | same => exact ⟨hp, hi, hib, hd, hdb, he⟩
  | writeRam ha v =>
    refine ⟨hp, hi, hib, memInsert_wf hd (BitVec.isLt _) v, fun c hc => ?_, he⟩
    rcases mem_memInsert hc with rfl | hc
    · exact ((dataRegion_ram_iff _ _).mp ha).2
    · exact hdb c hc
  | writeImem ha v =>
    refine ⟨hp, memInsert_wf hi (BitVec.isLt _) v, fun c hc => ?_, hd, hdb, he⟩
    rcases mem_memInsert hc with rfl | hc
    · exact ha
    · exact hib c hc
  | access hio =>
    refine ⟨hp, hi, hib, hd, hdb, fun e hmem => ?_⟩
    rcases List.mem_append.mp hmem with hmem | hmem
    · exact he e hmem
    · exact List.mem_singleton.mp hmem ▸ hio
  | resetRam => exact ⟨hp, hi, hib, ⟨.nil, by simp⟩, by simp, he⟩

/-! ### Memory accesses -/

theorem storage_deviceValue (s : State) (row : DevRow) : storage (deviceValue s row).2 = storage s := by
  rcases deviceValue_cases s row with ⟨_, h⟩ | ⟨_, v, q, _, h⟩ | ⟨_, _, h⟩ <;> rw [h] <;> rfl

theorem storageStep_record {s t : State} (h : storage t = storage s) {e : DevEvent}
    (he : 0x8000 ≤ (eventAddr e).toNat) : StorageStep (storage s) (storage (t.record e)) := by
  rw [← h]
  exact .access he

theorem storageStep_memRead (s : State) (a : Word16) : StorageStep (storage s) (storage (memRead s a).2) := by
  rcases memRead_cases s a with ⟨_, h⟩ | ⟨_, h⟩ | ⟨hr, h⟩ | ⟨row, hr, h⟩ <;> rw [h]
  · exact .same _
  · exact .same _
  · exact storageStep_record rfl (dataRegion_io (.inl hr))
  · exact storageStep_record (storage_deviceValue s row) (dataRegion_io (.inr ⟨row, hr⟩))

theorem storageStep_memWrite (s : State) (a v : Word16) : StorageStep (storage s) (storage (memWrite s a v)) := by
  rcases memWrite_cases s a v with ⟨hr, h⟩ | ⟨_, h⟩ | ⟨hr, h⟩ <;> rw [h]
  · exact .writeRam hr v
  · exact .same _
  · exact storageStep_record rfl (dataRegion_io hr)

/-! ### The CPU's turn -/

theorem storageStep_accessed (i : Instr) (s : State) : StorageStep (storage s) (storage (accessed i s)) := by
  cases i
  case load => exact storageStep_memRead _ _
  case store => exact storageStep_memWrite _ _ _
  all_goals exact .same _

theorem storage_commit (reads decs : List Reg) (dest : Dest) (s : State) :
    storage (commit reads decs dest s) = storage s := by
  simp [storage]

theorem storageStep_exec {i : Instr} {s t : State} (h : exec i s = .next t) :
    StorageStep (storage s) (storage t) := by
  rcases exec_cases i s with ⟨_, hret⟩ | ⟨_, dest, _, hcom⟩
  · obtain rfl := Host.Outcome.next.inj (hret.symm.trans h)
    rw [returnFromInterrupt_eq]
    exact .same _
  · obtain rfl := Host.Outcome.next.inj (hcom.symm.trans h)
    rw [storage_commit]
    exact storageStep_accessed i s

theorem storageStep_cpuStep {irq1 irq2 : Bool} {s t : State} (h : cpuStep irq1 irq2 s = .next t) :
    StorageStep (storage s) (storage t) := by
  rcases cpuStep_cases irq1 irq2 s with ⟨_, hc⟩ | ⟨_, k, _, hc⟩ | ⟨_, _, _, hc⟩ | ⟨_, _, _, hc⟩ <;> rw [hc] at h
  · cases h
    exact .same _
  · cases h
    rw [takeInterrupt_eq]
    exact .same _
  · cases h
  · exact storageStep_exec h

/-! ### The front panel -/

theorem storageStep_panelRead (s : State) (sel : MemSel) (a : Word16) :
    StorageStep (storage s) (storage (panelRead s sel a).2) := by
  cases sel with
  | imem =>
    dsimp only [panelRead]
    split <;> exact .same _
  | data => exact storageStep_memRead s a

theorem storageStep_panelWrite (s : State) (sel : MemSel) (a v : Word16) :
    StorageStep (storage s) (storage (panelWrite s sel a v)) := by
  cases sel with
  | imem =>
    dsimp only [panelWrite]
    split
    case isTrue ha => exact .writeImem (m := storage s) ha v
    case isFalse => exact .same _
  | data => exact storageStep_memWrite s a v

theorem storageStep_hostAction (a : HostAction) (s : State) :
    StorageStep (storage s) (storage (hostAction a s)) := by
  cases a <;> dsimp only [hostAction]
  case btnr => exact .resetRam _
  case btnc => exact .same _
  case btnlShort => split <;> exact .same _
  case btnlLong => split <;> exact .same _
  case btnu =>
    split
    · exact storageStep_panelRead s s.altair.sel s.switches
    · exact .same _
  case btnd =>
    split
    · exact storageStep_panelWrite s s.altair.sel s.altair.addr s.switches
    · exact .same _
  case setSwitches => exact .same _

/-! ### One step -/

theorem storageStep_step {s t : State} (h : step s = .next t) : StorageStep (storage s) (storage t) := by
  rcases step_cases s with ⟨a, rest, _, hs⟩ | ⟨irq1, irq2, rest, _, hs⟩ <;> rw [hs] at h
  · cases h
    exact storageStep_hostAction a (s.withEnv rest)
  · exact storageStep_cpuStep (s := s.withEnv rest) h

end Sys2Proof.Machine
end

section
/-! SUPPORT. The step at the CPU's turn by its cases (spec/00_scope.md R112, spec/70_reset_and_hazards.md R401), and the
state with a placed word. -/

namespace Sys2Proof.Machine

theorem step_of_cpuTurn {s : State} {irq1 irq2 : Bool} {rest : List EnvEvent} (h : cpuTurn s irq1 irq2 rest) :
    step s = cpuStep irq1 irq2 (s.withEnv rest) := by
  rcases h with h | ⟨h, rfl, rfl, rfl⟩
  · simp [step, machineStep, h]
  · have hs : s.withEnv [] = s := by rw [← h]; rfl
    rw [hs, step, machineStep, h]

theorem cpuStep_halted {s : State} (h : s.altair.on = true) (irq1 irq2 : Bool) : cpuStep irq1 irq2 s = .next s :=
  if_pos h

theorem cpuStep_runs {s : State} {irq1 irq2 : Bool} (hon : s.altair.on = false) (hirq : irqTaken s irq1 irq2 = none)
    (hpc : s.pc.toNat < s.cfg.imemWords) : cpuStep irq1 irq2 s = exec (decode (imemWord s s.pc)) s := by
  simp [cpuStep, hon, hirq, fetchExec, ifetch, hpc]

theorem irqTaken_no_request (s : State) : irqTaken s false false = none := by
  simp [irqTaken]

theorem cpuTurn_withFetchWord (s : State) (nbits w : Nat) : cpuTurn (s.withFetchWord nbits w) false false [] :=
  .inr ⟨rfl, rfl, rfl, rfl⟩

theorem pc_lt_imemWords_withFetchWord (s : State) (nbits w : Nat) :
    (s.withFetchWord nbits w).pc.toNat < (s.withFetchWord nbits w).cfg.imemWords :=
  Nat.lt_of_lt_of_le (Nat.lt_succ_self _) (Nat.le_max_right _ _)

theorem imemWord_withFetchWord (s : State) (w : Word16) :
    imemWord (s.withFetchWord 16 w.toNat) (s.withFetchWord 16 w.toNat).pc = w := by
  have hw : BitVec.ofNat 16 (w.toNat % 2 ^ 16) = w := by simp [Nat.mod_eq_of_lt w.isLt]
  simp only [imemWord, State.withFetchWord, placeFetchWord, hw, memLookup_memInsert_same, Option.getD_some]

end Sys2Proof.Machine
end

section
/-! PROOF. The obligations that cite spec/00_scope.md. -/

namespace Sys2Proof.Machine

/-- Settles O48, from what one step can do to the storage. -/
theorem stepKeepsInvariant : Obligations.StepKeepsInvariant :=
  fun s t hs h => (stateInv_iff t).mpr (storageInv_of_storageStep (storageStep_step h) ((stateInv_iff s).mp hs))

/-- Settles O50, from what one step can do to the storage. -/
theorem stepKeepsParameters : Obligations.StepKeepsParameters :=
  fun _ _ h => storageStep_cfg (storageStep_step h)

/-- Settles O18, bit by bit of the right shift. -/
theorem shrShiftsByFlag : Obligations.ShrShiftsByFlag := by
  intro s rd rs1 rs2 a n consulted fill
  have hfill : shrFillBit s.cfg.shrFill (shrMode s rd rs1 rs2) a = fill := rfl
  refine ⟨_, shrVal s.cfg.shrFill (shrMode s rd rs1 rs2) a n, exec_shr rd rs1 rs2 s, ?_, flagOf_shrVal _ _ _ _, ?_⟩
  · rw [← shrReads_eq]
    exact commit_only _ _ _ _
  · intro i hi
    rw [dataOf_shrVal, hfill]
    exact shiftRightFill_getLsbD _ _ _ hi

/-- Settles O19: the fill of a logical shift is 0, so the shift divides by 2^n. -/
theorem shrLogicalWhenFlagClear : Obligations.ShrLogicalWhenFlagClear := by
  intro s rd rs1 rs2 hmode a n
  refine ⟨_, shrVal s.cfg.shrFill (shrMode s rd rs1 rs2) a n, exec_shr rd rs1 rs2 s, commit_only _ _ _ _,
    flagOf_shrVal _ _ _ _, ?_⟩
  rw [hmode, dataOf_shrVal, shrFillBit_logical, shiftRightFill_false, BitVec.toNat_ushiftRight,
    Nat.shiftRight_eq_div_pow]

/-- Settles O21, by the setting of `IMM8_EXT`. -/
theorem aliAddsToRd : Obligations.AliAddsToRd := by
  intro s rd imm8 d
  refine ⟨_, aliVal s.cfg.imm8Ext (destVal s rd) imm8, exec_ali rd imm8 s, commit_only _ _ _ _, ?_, ?_⟩
  · intro hzero
    rw [hzero]
    exact aliVal_zero _ imm8
  · intro hsign
    rw [hsign]
    exact aliVal_sign_toNat _ imm8

/-- Settles O25, by the condition and then by the sign of the extended imm4. -/
theorem caizAddsWhenZero : Obligations.CaizAddsWhenZero := by
  intro s rd rs1 imm4 c d k zero
  have hzero : zeroCond s.cfg.zeroTestWidth (srcVal s rs1) = true ↔ zero := zeroCond_iff _ _
  constructor
  · intro hz
    refine ⟨_, addiVal s.cfg.imm4Ext (rdVal [rs1] s rd) imm4, exec_caiz_taken (hzero.mpr hz) imm4,
      commit_only _ _ _ _, addiVal_nonneg _, ?_⟩
    rintro ⟨hsign, hk⟩
    rw [hsign]
    exact addiVal_neg _ hk
  · intro hz
    exact ⟨_, exec_caiz_not_taken (mt hzero.mp hz) rd imm4, commit_only _ _ _ _⟩

/-- Settles O5, one read rule per kind of register and of position. -/
theorem operandReadValues : Obligations.OperandReadValues := by
  intro s
  refine ⟨?lo, ?hi, srcVal_r13_before, srcVal_r13_after, ?r14, ?r15, ?dest, destVal_r13 s, ?mem, ?notMem⟩
  case lo => exact fun i => srcVal_of_ne_r13 (by simp) s
  case hi => exact fun i => srcVal_of_ne_r13 (by simp) s
  case r14 => exact fun j hj => (srcVal_of_ne_r13 (by simp) s).trans (stackTop_of_sp hj)
  case r15 => exact srcVal_of_ne_r13 (by simp) s
  case dest => exact fun r hr => (srcVal_of_ne_r13 hr s).symm
  case mem => exact fun decs r h => rdVal_of_mem h s
  case notMem => exact fun decs r h => rdVal_of_not_mem h s

/-- Settles O45: the turn comes to the fetch, which finds a word. -/
theorem stepRunsDecodedInstruction : Obligations.StepRunsDecodedInstruction := by
  rintro s irq1 irq2 rest i hturn hon hirq hpc rfl
  rw [step_of_cpuTurn hturn]
  exact cpuStep_runs (s := s.withEnv rest) hon hirq hpc

/-- Settles O47, from O45 at the state with the placed word. -/
theorem placedWordRunsNext : Obligations.PlacedWordRunsNext := fun s w =>
  stepRunsDecodedInstruction (s.withFetchWord 16 w.toNat) false false [] (decode w) (cpuTurn_withFetchWord s 16 w.toNat)
    rfl (irqTaken_no_request _) (pc_lt_imemWords_withFetchWord s 16 w.toNat)
    (congrArg decode (imemWord_withFetchWord s w))

/-- Settles O53: the halted CPU's turn only uses up the schedule's entry. -/
theorem altairModeHaltsCpu : Obligations.AltairModeHaltsCpu := by
  intro s irq1 irq2 rest hturn hon
  rw [step_of_cpuTurn hturn]
  exact cpuStep_halted (s := s.withEnv rest) hon irq1 irq2

end Sys2Proof.Machine
end

section
/-! SUPPORT. What an instruction leaves, read off from its commit and its one data access (spec/10_state.md R137,
spec/20_memory.md R168); the R14 stack after a push, a pop and neither (R140); the instructions of the save, restore,
call and return idioms as commits (spec/47_control_transfer.md R290). -/

namespace Sys2Proof.Machine

/-! ### The data access -/

/-- All a data write can change. -/
theorem memWrite_frame (s : State) (a v : Word16) :
    ∃ d ev, memWrite s a v = { s with dmem := d, events := ev } := by
  rcases memWrite_cases s a v with ⟨_, h⟩ | ⟨_, h⟩ | ⟨_, h⟩ <;> exact ⟨_, _, h⟩

/-- All that the data access of an instruction can change. -/
theorem accessed_frame (i : Instr) (s : State) :
    ∃ d ev q n, accessed i s = { s with dmem := d, events := ev, devIn := q, draws := n } := by
  cases i
  case load rd rs1 rs2 =>
    obtain ⟨_, _, _, h, _⟩ := memRead_frame s (effAddr s rs1 rs2)
    exact ⟨_, _, _, _, h⟩
  case store rd rs1 rs2 =>
    obtain ⟨_, _, h⟩ := memWrite_frame s (effAddr s rs1 rs2) (dataOf (srcVal s rd))
    exact ⟨_, _, _, _, h⟩
  all_goals exact ⟨_, _, _, _, rfl⟩

/-- The data access changes nothing that the commit of R0 to R15 starts from. -/
theorem registersCommit_accessed {i : Instr} {reads decs : List Reg} {dest : Dest} {s t : State} :
    RegistersCommit reads decs dest (accessed i s) t ↔ RegistersCommit reads decs dest s t := by
  obtain ⟨_, _, _, _, h⟩ := accessed_frame i s
  rw [h]
  exact Iff.rfl

theorem systemSame_accessed {i : Instr} {s t : State} : SystemSame (accessed i s) t ↔ SystemSame s t := by
  obtain ⟨_, _, _, _, h⟩ := accessed_frame i s
  rw [h]
  exact Iff.rfl

/-! ### The destination -/

theorem destAt_eq_none_iff (dest : Dest) (r : Reg) : destAt dest r = none ↔ dest.map Prod.fst ≠ some r := by
  cases dest <;> simp [destAt]

theorem leavesIsr_iff (i : Instr) (s : State) : leavesIsr i s = true ↔ i = .iret ∧ s.isrActive = true := by
  simp [leavesIsr]

theorem ne_of_isPlain {r : Reg} (h : isPlain r = true) : r ≠ .r13 ∧ r ≠ .r14 ∧ r ≠ .r15 := by
  refine ⟨?_, ?_, ?_⟩ <;> rintro rfl <;> cases h

/-! ### One register or the stack after a commit -/

section
variable {reads decs : List Reg} {dest : Dest} {s t : State}

theorem destVal_of_registersCommit (h : RegistersCommit reads decs dest s t) {r : Reg} (hr : isPlain r = true) :
    destVal t r = (destAt dest r).getD (destVal s r) := by
  obtain ⟨hlo, hhi, _⟩ := h
  cases r with
  | lo i => exact hlo i
  | hi i => exact hhi i
  | r13 | r14 | r15 => cases hr

theorem pc_of_registersCommit (h : RegistersCommit reads decs dest s t) :
    t.pc = ((destAt dest .r15).map dataOf).getD (s.pc + 1) := by
  obtain ⟨_, _, _, hpc, _⟩ := h
  exact hpc

theorem stackCommit_of_registersCommit (h : RegistersCommit reads decs dest s t) : StackCommit reads dest s t := by
  obtain ⟨_, _, _, _, _, hst⟩ := h
  exact hst

/-- A push puts the value on top and keeps the entries below. -/
theorem stackCommit_push {v : RegVal} (h : StackCommit reads (some (.r14, v)) s t) (hr : .r14 ∉ reads)
    (hsp : s.sp ≠ 8) :
    t.sp.val = s.sp.val + 1 ∧ stackTop t = v ∧ ∀ j : Fin 8, j.val < s.sp.val → t.stk[j.val] = s.stk[j.val] := by
  have hpush : t.sp.val = s.sp.val + 1 ∧
      ∀ j : Fin 8, t.stk[j.val] = if j.val = s.sp.val then v else s.stk[j.val] := by
    simp only [StackCommit, hr, decide_false, destAt, if_true] at h
    exact h hsp
  obtain ⟨htsp, hstk⟩ := hpush
  have hlt : s.sp.val < 8 := by
    have := t.sp.isLt
    omega
  refine ⟨htsp, ?_, fun j hj => ?_⟩
  · rw [stackTop_of_sp (j := ⟨s.sp.val, hlt⟩) htsp, hstk, if_pos rfl]
  · rw [hstk, if_neg (Nat.ne_of_lt hj)]

/-- A pop keeps the entries. -/
theorem stackCommit_pop (h : StackCommit reads dest s t) (hr : .r14 ∈ reads) (hd : destAt dest .r14 = none)
    (hsp : s.sp ≠ 0) : t.sp.val + 1 = s.sp.val ∧ t.stk = s.stk := by
  simp only [StackCommit, hr, decide_true, hd] at h
  exact h hsp

/-- An instruction that does not name R14 keeps the stack. -/
theorem stackCommit_untouched (h : StackCommit reads dest s t) (hr : .r14 ∉ reads) (hd : destAt dest .r14 = none) :
    t.sp = s.sp ∧ t.stk = s.stk := by
  simp only [StackCommit, hr, decide_false, hd] at h
  exact h

end

@[simp] theorem destVal_r14 (s : State) : destVal s .r14 = stackTop s := rfl

theorem stackTop_congr {s t : State} (hsp : t.sp = s.sp) (hstk : t.stk = s.stk) (h0 : s.sp ≠ 0) :
    stackTop t = stackTop s := by
  simp [stackTop, hsp, hstk, h0]

/-! ### Instructions as commits -/

/-- `OR rd, rs, rs` moves all 17 bits. -/
theorem exec_or_self_commits {s : State} (hw : s.cfg.logicWidth = .w17) {rs : Reg} (hrs : rs ≠ .r13) (rd : Reg) :
    ∃ t, exec (.or rd rs rs) s = .next t ∧ CommitsOnly [rs, rs] [rs, rs] (some (rd, destVal s rs)) s t := by
  have hval : logicResult s.cfg.logicWidth (srcVal s rs ||| srcVal s rs) = destVal s rs := by
    rw [hw, logicResult, BitVec.or_self, srcVal_of_ne_r13 hrs]
  exact ⟨_, rfl, hval ▸ commit_only _ _ _ _⟩

/-- ADDI from a register other than R13. -/
theorem exec_addi_commits {rs : Reg} (hrs : rs ≠ .r13) (rd : Reg) (imm4 : BitVec 4) (s : State) :
    ∃ t, exec (.addi rd rs imm4) s = .next t ∧
      CommitsOnly [rs] [rs] (some (rd, addiVal s.cfg.imm4Ext (destVal s rs) imm4)) s t :=
  ⟨_, rfl, srcVal_of_ne_r13 hrs s ▸ commit_only _ _ _ _⟩

/-- A small imm4 is added as it stands. -/
theorem dataOf_addiVal {imm4 : BitVec 4} (h : imm4.toNat < 8) (ext : Ext) (a : RegVal) :
    dataOf (addiVal ext a imm4) = dataOf a + imm4.setWidth 16 := by
  obtain ⟨hsum, _⟩ := addiVal_nonneg (ext := ext) a (.inr h)
  apply BitVec.eq_of_toNat_eq
  rw [hsum, BitVec.toNat_add, BitVec.toNat_setWidth_of_le (by decide)]

theorem dataOf_addiVal_zero (ext : Ext) (a : RegVal) : dataOf (addiVal ext a 0#4) = dataOf a := by
  rw [dataOf_addiVal (by decide)]
  exact BitVec.add_zero _

end Sys2Proof.Machine
end

section
/-! SUPPORT. Instructions do not look at the shadows or at `ret_pc` (spec/10_state.md R127, R130 to R132): replacing
both commutes with every part of an instruction. -/

namespace Sys2Proof.Machine

/-- The same state with other shadows and another `ret_pc`. -/
def State.withShadows (s : State) (h : Vector RegVal 8) (r : Word16) : State := { s with sh := h, retPc := r }

section
variable (s : State) (h : Vector RegVal 8) (r : Word16)

theorem srcVal_withShadows (q : Reg) : srcVal (s.withShadows h r) q = srcVal s q := rfl

theorem effAddr_withShadows (rs1 rs2 : Reg) : effAddr (s.withShadows h r) rs1 rs2 = effAddr s rs1 rs2 := rfl

theorem commitDec_withShadows (decs : List Reg) (dest : Dest) :
    commitDec decs dest (s.withShadows h r) = (commitDec decs dest s).withShadows h r := by
  unfold commitDec
  split <;> rfl

theorem commitStack_withShadows (reads : List Reg) (dest : Dest) :
    commitStack reads dest (s.withShadows h r) = (commitStack reads dest s).withShadows h r := by
  have hsp : (s.withShadows h r).sp = s.sp := rfl
  unfold commitStack
  split
  · simp only [stackModify, hsp]
    split <;> rfl
  · simp only [stackPop, hsp]
    split <;> rfl
  · simp only [stackPush, hsp]
    split <;> rfl
  · rfl

theorem commitPlain_withShadows (dest : Dest) :
    commitPlain dest (s.withShadows h r) = (commitPlain dest s).withShadows h r := by
  rcases dest with _ | ⟨_ | _ | _ | _ | _, v⟩ <;> rfl

theorem commitPc_withShadows (dest : Dest) :
    commitPc dest (s.withShadows h r) = (commitPc dest s).withShadows h r := by
  unfold commitPc
  split <;> rfl

theorem commit_withShadows (reads decs : List Reg) (dest : Dest) :
    commit reads decs dest (s.withShadows h r) = (commit reads decs dest s).withShadows h r := by
  simp only [commit, commitDec_withShadows, commitStack_withShadows, commitPlain_withShadows, commitPc_withShadows]

theorem deviceValue_withShadows (row : DevRow) :
    deviceValue (s.withShadows h r) row = ((deviceValue s row).1, (deviceValue s row).2.withShadows h r) := by
  have hq : (s.withShadows h r).devIn = s.devIn := rfl
  unfold deviceValue deviceAnswer
  rw [hq]
  split
  · rfl
  · split <;> rfl

theorem memRead_withShadows (a : Word16) :
    memRead (s.withShadows h r) a = ((memRead s a).1, (memRead s a).2.withShadows h r) := by
  have hcfg : (s.withShadows h r).cfg = s.cfg := rfl
  unfold memRead
  rw [hcfg]
  split
  case h_3 row =>
    rw [deviceValue_withShadows]
    rfl
  all_goals rfl

theorem memWrite_withShadows (a v : Word16) :
    memWrite (s.withShadows h r) a v = (memWrite s a v).withShadows h r := by
  have hcfg : (s.withShadows h r).cfg = s.cfg := rfl
  unfold memWrite
  rw [hcfg]
  split <;> rfl

theorem conditionalAdd_withShadows (cond : Bool) (rd rs1 : Reg) (imm4 : BitVec 4) :
    conditionalAdd cond rd rs1 imm4 (s.withShadows h r) = (conditionalAdd cond rd rs1 imm4 s).withShadows h r := by
  cases cond with
  | false => exact commit_withShadows s h r [rs1] [rs1] none
  | true => exact commit_withShadows s h r [rs1, rd] [rs1] (some (rd, addiVal s.cfg.imm4Ext (rdVal [rs1] s rd) imm4))

end

end Sys2Proof.Machine
end

section
/-! SUPPORT. A step in which the person at the board acts (spec/70_reset_and_hazards.md R403). -/

namespace Sys2Proof.Machine

theorem step_of_host {s : State} {a : HostAction} {rest : List EnvEvent} (h : s.env = .host a :: rest) :
    step s = .next (hostAction a (s.withEnv rest)) := by
  simp [step, machineStep, h]

end Sys2Proof.Machine
end

section
/-! PROOF. The obligations that cite spec/10_state.md. -/

namespace Sys2Proof.Machine

/-- Settles O6: the commit acts on what the data access leaves, and that access touches no register and no
bookkeeping. -/
theorem everyInstructionCommits : Obligations.EveryInstructionCommits := by
  intro i s hi
  rcases exec_cases i s with ⟨hret, _⟩ | ⟨_, dest, hdest, hexec⟩
  · rw [hi] at hret
    cases hret
  · obtain ⟨hreg, hmem, hsys⟩ := commit_only (readPositions i s) (decPositions i) dest (accessed i s)
    exact ⟨_, dest, hexec, hdest, registersCommit_accessed.mp hreg, hmem, systemSame_accessed.mp hsys⟩

/-- Settles O7, from the line of R137 for R13; IRET in a service routine has no decrement position. -/
theorem r13DecrementsOnSourceUse : Obligations.R13DecrementsOnSourceUse := by
  intro i s hw
  cases hi : leavesIsr i s with
  | true =>
    obtain ⟨rfl, hisr⟩ := (leavesIsr_iff i s).mp hi
    have hexec : exec .iret s = .next (returnFromInterrupt s) := if_pos hisr
    refine ⟨_, hexec, nofun, fun _ => ?_⟩
    rw [returnFromInterrupt_eq]
  | false =>
    obtain ⟨t, dest, hexec, hdest, ⟨_, _, hr13, _⟩, _⟩ := everyInstructionCommits i s hi
    have hnone : destAt dest .r13 = none := (destAt_eq_none_iff dest .r13).mpr (hdest ▸ hw)
    rw [hnone, Option.getD_none] at hr13
    refine ⟨t, hexec, fun hd => ?_, fun hd => ?_⟩
    · rw [hr13, if_pos hd]
      exact ⟨dataOf_mkVal _ _, flagOf_mkVal _ _⟩
    · rw [hr13, if_neg hd]

/-- Settles O8, from the lines of R137 for R15. -/
theorem pcAdvancesUnlessR15Written : Obligations.PcAdvancesUnlessR15Written := by
  intro i s hi hw
  obtain ⟨t, dest, hexec, hdest, ⟨_, _, _, hpc, hflag, _⟩, _⟩ := everyInstructionCommits i s hi
  have hnone : destAt dest .r15 = none := (destAt_eq_none_iff dest .r15).mpr (hdest ▸ hw)
  rw [hnone] at hpc hflag
  refine ⟨t, hexec, ?_, hflag⟩
  rw [hpc]
  exact BitVec.toNat_add s.pc 1

/-- Settles O9: the push leaves Rn's value on top, and the pop moves the top to Rm. -/
theorem pushThenPopRestores : Obligations.PushThenPopRestores := by
  intro s rn rm hn hm hsp hw
  obtain ⟨hn13, hn14, _⟩ := ne_of_isPlain hn
  obtain ⟨_, hm14, hm15⟩ := ne_of_isPlain hm
  obtain ⟨t, hexec, hpush, _, hsys⟩ := exec_or_self_commits hw hn13 .r14
  obtain ⟨_, _, _, hcfg, _⟩ := hsys
  obtain ⟨u, hexec', hpop, _⟩ := exec_or_self_commits (hcfg ▸ hw) (show Reg.r14 ≠ .r13 by decide) rm
  obtain ⟨htsp, htop, hbelow⟩ := stackCommit_push (stackCommit_of_registersCommit hpush) (by simp [hn14.symm]) hsp
  have ht0 : t.sp ≠ 0 := fun e => by simp [e] at htsp
  obtain ⟨husp, hustk⟩ := stackCommit_pop (stackCommit_of_registersCommit hpop) (by simp) (if_neg hm14) ht0
  refine ⟨t, u, hexec, hexec', htsp, Fin.ext (by omega), ?_, fun j hj => ?_, ?_⟩
  · calc destVal u rm = stackTop t := by simp [destVal_of_registersCommit hpop hm, destAt]
      _ = destVal s rn := htop
  · simp only [hustk, hbelow j hj]
  · calc u.pc = t.pc + 1 := by simp [pc_of_registersCommit hpop, destAt, hm15]
      _ = s.pc + 1 + 1 := by simp [pc_of_registersCommit hpush, destAt]
      _ = s.pc + 2 := BitVec.add_assoc _ _ _

/-- Settles O10: the call pushes the address of the word after the jump, the jump leaves the stack, and the return pops
that address into `pc`. -/
theorem callThenReturnComesBack : Obligations.CallThenReturnComesBack := by
  intro s rt hrt hsp hoff
  obtain ⟨hrt13, hrt14, _⟩ := ne_of_isPlain hrt
  obtain ⟨t, hcall, hpush, _⟩ := exec_addi_commits (show Reg.r15 ≠ .r13 by decide) .r14 2#4 s
  obtain ⟨u, hjump, hbranch, _⟩ := exec_addi_commits hrt13 .r15 0#4 t
  obtain ⟨v, hreturn, hpop, _⟩ := exec_addi_commits (show Reg.r14 ≠ .r13 by decide) .r15 0#4 u
  obtain ⟨htsp, htop, hbelow⟩ := stackCommit_push (stackCommit_of_registersCommit hpush) (by decide) hsp
  have ht0 : t.sp ≠ 0 := fun e => by simp [e] at htsp
  obtain ⟨husp, hustk⟩ := stackCommit_untouched (stackCommit_of_registersCommit hbranch) (by simp [hrt14.symm]) rfl
  obtain ⟨hvsp, hvstk⟩ := stackCommit_pop (stackCommit_of_registersCommit hpop) (by simp) rfl (husp ▸ ht0)
  refine ⟨t, u, v, hcall, hjump, hreturn, ?_, ?_, Fin.ext (by omega), fun j hj => ?_⟩
  · calc u.pc = dataOf (addiVal t.cfg.imm4Ext (destVal t rt) 0#4) := pc_of_registersCommit hbranch
      _ = dataOf (destVal t rt) := dataOf_addiVal_zero _ _
      _ = dataOf (destVal s rt) := by simp [destVal_of_registersCommit hpush hrt, destAt, hrt14.symm]
  · calc v.pc = dataOf (addiVal u.cfg.imm4Ext (stackTop u) 0#4) := pc_of_registersCommit hpop
      _ = dataOf (stackTop u) := dataOf_addiVal_zero _ _
      _ = dataOf (addiVal s.cfg.imm4Ext (destVal s .r15) 2#4) := by rw [stackTop_congr husp hustk ht0, htop]
      _ = s.pc + 2 := by simp [dataOf_addiVal, hoff]
  · simp only [hvstk, hustk, hbelow j hj]

/-- Settles O43: every instruction but IRET in a service routine is a commit, perhaps after one data access, and both
commute with replacing the shadows. -/
theorem shadowsUnobservedOutsideIsr : Obligations.ShadowsUnobservedOutsideIsr := by
  intro i s h r hisr
  suffices ∃ t, exec i s = .next t ∧ exec i (s.withShadows h r) = .next (t.withShadows h r) from this
  cases i
  case load rd rs1 rs2 =>
    refine ⟨_, rfl, ?_⟩
    simp only [exec, execLoad, effAddr_withShadows, memRead_withShadows, commit_withShadows]
  case store rd rs1 rs2 =>
    refine ⟨_, rfl, ?_⟩
    simp only [exec, execStore, srcVal_withShadows, effAddr_withShadows, memWrite_withShadows, commit_withShadows]
  case caiz rd rs1 imm4 => exact ⟨_, rfl, congrArg _ (conditionalAdd_withShadows s h r _ rd rs1 imm4)⟩
  case caif rd rs1 imm4 => exact ⟨_, rfl, congrArg _ (conditionalAdd_withShadows s h r _ rd rs1 imm4)⟩
  case iret =>
    have hnot : ¬ s.isrActive = true := by simp [hisr]
    exact ⟨_, if_neg hnot, (if_neg hnot).trans (congrArg _ (commit_withShadows s h r _ _ _))⟩
  all_goals exact ⟨_, rfl, congrArg _ (commit_withShadows s h r _ _ _)⟩

/-- Settles O49: power-up has the default sizes and lists nothing. -/
theorem resetMeetsInvariant : Obligations.ResetMeetsInvariant :=
  ⟨rfl, reset_imem_wf, nofun, reset_dmem_wf, nofun, nofun⟩

/-- Settles O52: the step is the reset event. -/
theorem resetButtonResetsProcessor : Obligations.ResetButtonResetsProcessor := by
  intro s rest hs
  refine ⟨_, step_of_host hs, ?lo, ?hi, rfl, rfl, ?stk, rfl, rfl, ?sh, rfl, rfl, fun _ => rfl, rfl, rfl, rfl, rfl⟩
  case hi => exact (by decide : ∀ i : Fin 5, #v[(0 : RegVal), 0, 0, 0, 1][i.val] = if i.val = 4 then 1 else 0)
  all_goals exact fun _ => Vector.getElem_replicate ..

end Sys2Proof.Machine
end

section
/-! SUPPORT. The data address map by address, and what a data read and a data write do in each of its regions
(spec/20_memory.md R162, R166 to R168, spec/60_exceptions.md R340 to R344, R373). -/

namespace Sys2Proof.Machine

/-! ### The data address map -/

/-- The addresses of the device tables, block by block (R341 to R372). -/
def IsListed (n : Nat) : Prop :=
  (0xFFB0 ≤ n ∧ n ≤ 0xFFB3) ∨ (0xFFC0 ≤ n ∧ n ≤ 0xFFC2) ∨ (0xFFD0 ≤ n ∧ n ≤ 0xFFD2) ∨
  (0xFFD5 ≤ n ∧ n ≤ 0xFFD7) ∨ (0xFFD9 ≤ n ∧ n ≤ 0xFFDF) ∨ (0xFFE0 ≤ n ∧ n ≤ 0xFFE4) ∨
  (0xFFFC ≤ n ∧ n ≤ 0xFFFF)

theorem isListed_io {n : Nat} (h : IsListed n) : 0x8000 ≤ n := by
  unfold IsListed at h
  omega

theorem devRowAt_isSome_iff (a : Word16) : (devRowAt a).isSome ↔ IsListed a.toNat := by
  have hrows : (devRowAt a).isSome ↔ ∃ row ∈ devTable, row.addr = a := by
    simp only [devRowAt, List.find?_isSome, beq_iff_eq]
  simp only [hrows, devTable, List.cons_append, List.nil_append, List.exists_mem_cons_iff, List.not_mem_nil, false_and,
    exists_false, or_false, ← BitVec.toNat_inj, BitVec.reduceToNat, IsListed]
  constructor
  · intro hrow
    omega
  · intro hlisted
    omega

theorem addr_of_devRowAt {a : Word16} {row : DevRow} (h : devRowAt a = some row) : row.addr = a := by
  simpa using List.find?_some h

theorem dataRegion_hole_iff (p : Params) (a : Word16) :
    dataRegion p a = .hole ↔ p.dmemWords ≤ a.toNat ∧ a.toNat < 0x8000 := by
  unfold dataRegion
  split
  · split <;> simp <;> omega
  · split <;> simp <;> omega

theorem dataRegion_device_iff (p : Params) (a : Word16) (row : DevRow) :
    dataRegion p a = .device row ↔ 0x8000 ≤ a.toNat ∧ devRowAt a = some row := by
  unfold dataRegion
  split
  · split <;> simp [*]
  · split <;> simp [*]

theorem dataRegion_ioUnmapped_iff (p : Params) (a : Word16) :
    dataRegion p a = .ioUnmapped ↔ 0x8000 ≤ a.toNat ∧ devRowAt a = none := by
  unfold dataRegion
  split
  · split <;> simp [*]
  · split <;> simp [*]

/-- The I/O region holds device registers and nothing else that is documented. -/
theorem dataRegion_of_io (p : Params) {a : Word16} (h : 0x8000 ≤ a.toNat) :
    dataRegion p a = .ioUnmapped ∨ ∃ row, dataRegion p a = .device row := by
  cases hrow : devRowAt a with
  | none => exact .inl ((dataRegion_ioUnmapped_iff p a).mpr ⟨h, hrow⟩)
  | some row => exact .inr ⟨row, (dataRegion_device_iff p a row).mpr ⟨h, hrow⟩⟩

theorem dataRegion_ne_ram_of_io (p : Params) {a : Word16} (h : 0x8000 ≤ a.toNat) : dataRegion p a ≠ .ram := by
  intro hram
  obtain ⟨hlt, _⟩ := (dataRegion_ram_iff p a).mp hram
  exact absurd hlt (Nat.not_lt.mpr h)

/-- SWITCHES stands at 0xFFFE (R343). -/
theorem dataRegion_switches (p : Params) : dataRegion p 0xFFFE#16 = .device ⟨.switches, 0xFFFE, .r⟩ :=
  (dataRegion_device_iff p _ _).mpr ⟨by decide, by decide⟩

/-! ### A data read by region -/

theorem memRead_ram {s : State} {a : Word16} (h : dataRegion s.cfg a = .ram) : memRead s a = (ramWord s a, s) := by
  simp only [memRead, h]

theorem memRead_hole {s : State} {a : Word16} (h : dataRegion s.cfg a = .hole) :
    memRead s a = (Config.unmappedRead s.draws a, s.bump) := by
  simp only [memRead, h]

/-- What a read of the I/O address `a` can return, and the answers queued after it: any value where no register is listed,
the switches from SWITCHES, and from any other register the next answer queued, or any value where none is. -/
inductive IoRead (s : State) (a : Word16) : Word16 → List Word16 → Prop where
  | unmapped (hr : dataRegion s.cfg a = .ioUnmapped) (v : Word16) : IoRead s a v s.devIn
  | switches {row : DevRow} (hr : dataRegion s.cfg a = .device row) (hreg : row.reg = .switches) :
      IoRead s a s.switches s.devIn
  | queued {row : DevRow} (hr : dataRegion s.cfg a = .device row) (hreg : row.reg ≠ .switches) {v : Word16}
      {q : List Word16} (hq : s.devIn = v :: q) : IoRead s a v q
  | unanswered {row : DevRow} (hr : dataRegion s.cfg a = .device row) (hreg : row.reg ≠ .switches)
      (hq : s.devIn = []) (v : Word16) : IoRead s a v []

/-- A read in the I/O region is one event, which holds the value returned (R168, R340). -/
theorem memRead_io {s : State} {a : Word16} (h : 0x8000 ≤ a.toNat) :
    ∃ v q n, IoRead s a v q ∧
      memRead s a = (v, { s with events := s.events ++ [.read a v], devIn := q, draws := n }) := by
  rcases memRead_cases s a with ⟨hr, _⟩ | ⟨hr, _⟩ | ⟨hr, hread⟩ | ⟨row, hr, hread⟩
  · exact absurd hr (dataRegion_ne_ram_of_io _ h)
  · obtain ⟨_, hlt⟩ := (dataRegion_hole_iff _ _).mp hr
    omega
  · exact ⟨_, _, _, .unmapped hr _, hread⟩
  · rcases deviceValue_cases s row with ⟨hreg, hval⟩ | ⟨hreg, v, q, hq, hval⟩ | ⟨hreg, hq, hval⟩ <;>
      rw [hval] at hread
    · exact ⟨_, _, s.draws, .switches hr hreg, hread⟩
    · exact ⟨_, _, s.draws, .queued hr hreg hq, hread⟩
    · exact ⟨_, _, s.draws + 1, .unanswered hr hreg hq _, by rw [hread, ← hq]; rfl⟩

section
variable {s : State} {a v : Word16} {q : List Word16}

theorem ioRead_switches (h : IoRead s a v q) (ha : a = 0xFFFE#16) : v = s.switches ∧ q = s.devIn := by
  have hsw : dataRegion s.cfg a = .device ⟨.switches, 0xFFFE, .r⟩ := ha ▸ dataRegion_switches s.cfg
  cases h with
  | unmapped hr => cases hr.symm.trans hsw
  | switches => exact ⟨rfl, rfl⟩
  | queued hr hreg | unanswered hr hreg =>
    cases hr.symm.trans hsw
    exact absurd rfl hreg

theorem ioRead_unmapped (h : IoRead s a v q) (ha : dataRegion s.cfg a = .ioUnmapped) : q = s.devIn := by
  cases h with
  | unmapped | switches => rfl
  | queued hr | unanswered hr => cases hr.symm.trans ha

theorem ioRead_nothing_queued (h : IoRead s a v q) (hs : s.devIn = []) : q = [] := by
  cases h with
  | unmapped | switches => exact hs
  | queued _ _ hq => cases hs.symm.trans hq
  | unanswered => rfl

theorem ioRead_queued (h : IoRead s a v q) {row : DevRow} (ha : dataRegion s.cfg a = .device row)
    (hrow : row.reg ≠ .switches) {w : Word16} {q' : List Word16} (hs : s.devIn = w :: q') : v = w ∧ q = q' := by
  cases h with
  | unmapped hr => cases hr.symm.trans ha
  | switches hr hreg =>
    cases hr.symm.trans ha
    exact absurd hreg hrow
  | queued _ _ hq => exact List.cons.inj (hq.symm.trans hs)
  | unanswered _ _ hq => cases hq.symm.trans hs

end

/-! ### A data write by region -/

theorem memWrite_ram {s : State} {a : Word16} (h : dataRegion s.cfg a = .ram) (v : Word16) :
    memWrite s a v = s.withDmem (memInsert s.dmem a.toNat v) := by
  simp only [memWrite, h]

theorem memWrite_hole {s : State} {a : Word16} (h : dataRegion s.cfg a = .hole) (v : Word16) :
    memWrite s a v = s := by
  simp only [memWrite, h]

/-- A write in the I/O region is one event and nothing else (R168, R340). -/
theorem memWrite_io {s : State} {a : Word16} (h : 0x8000 ≤ a.toNat) (v : Word16) :
    memWrite s a v = s.record (.write a v) := by
  rcases dataRegion_of_io s.cfg h with hr | ⟨row, hr⟩ <;> simp only [memWrite, hr]

/-- A data write leaves every other word of RAM. -/
theorem ramWord_memWrite_other {s : State} (hs : s.dmem.wf) {a b : Word16} (v : Word16) (h : b ≠ a) :
    ramWord (memWrite s a v) b = ramWord s b := by
  rcases memWrite_cases s a v with ⟨_, hw⟩ | ⟨_, hw⟩ | ⟨_, hw⟩ <;> rw [hw]
  · exact ramWord_withDmem_other hs v h
  · rfl

/-! ### IMEM -/

theorem imemWord_withImem_same (s : State) (a v : Word16) :
    imemWord (s.withImem (memInsert s.imem a.toNat v)) a = v := by
  simp [imemWord, memLookup_memInsert_same]

theorem imemWord_withImem_other {s : State} (hs : s.imem.wf) {a b : Word16} (v : Word16) (h : b ≠ a) :
    imemWord (s.withImem (memInsert s.imem a.toNat v)) b = imemWord s b := by
  obtain ⟨hrising, _⟩ := hs
  have hn : b.toNat ≠ a.toNat := fun e => h (BitVec.eq_of_toNat_eq e)
  simp [imemWord, memLookup_memInsert_other hrising v hn]

end Sys2Proof.Machine
end

section
/-! SUPPORT. LOAD and STORE as commits, the memory access of every instruction, and when a step stops
(spec/45_load_store.md R266, R267, spec/20_memory.md R165, R168, R170). -/

namespace Sys2Proof.Machine

/-! ### LOAD and STORE -/

theorem exec_load (rd rs1 rs2 : Reg) (s : State) :
    exec (.load rd rs1 rs2) s = .next (commit [rs1, rs2] [rs1, rs2]
      (some (rd, mkVal false (memRead s (effAddr s rs1 rs2)).1)) (memRead s (effAddr s rs1 rs2)).2) := rfl

theorem exec_store (rd rs1 rs2 : Reg) (s : State) :
    exec (.store rd rs1 rs2) s = .next (commit [rd, rs1, rs2] [rd, rs1, rs2] none
      (memWrite s (effAddr s rs1 rs2) (dataOf (srcVal s rd)))) := rfl

theorem ne_r13_of_isPlain {r : Reg} (h : isPlain r = true) : r ≠ .r13 := by
  obtain ⟨h13, _⟩ := ne_of_isPlain h
  exact h13

theorem effAddr_of_isPlain {ra rb : Reg} (ha : isPlain ra = true) (hb : isPlain rb = true) (s : State) :
    effAddr s ra rb = dataOf (destVal s ra) + dataOf (destVal s rb) := by
  rw [effAddr, srcVal_of_ne_r13 (ne_r13_of_isPlain ha), srcVal_of_ne_r13 (ne_r13_of_isPlain hb)]

/-! ### The memory access of an instruction -/

/-- Only LOAD and STORE access data memory (R168). -/
theorem accessed_cases (i : Instr) (s : State) :
    (∃ rd rs1 rs2, i = .load rd rs1 rs2 ∧ accessed i s = (memRead s (effAddr s rs1 rs2)).2) ∨
    (∃ rd rs1 rs2, i = .store rd rs1 rs2 ∧ accessed i s = memWrite s (effAddr s rs1 rs2) (dataOf (srcVal s rd))) ∨
    accessed i s = s := by
  cases i
  case load => exact .inl ⟨_, _, _, rfl, rfl⟩
  case store => exact .inr (.inl ⟨_, _, _, rfl, rfl⟩)
  all_goals exact .inr (.inr rfl)

theorem accessed_imem (i : Instr) (s : State) :
    (accessed i s).imem = s.imem ∧ (accessed i s).dmemEpoch = s.dmemEpoch := by
  obtain ⟨_, _, _, _, h⟩ := accessed_frame i s
  rw [h]
  exact ⟨rfl, rfl⟩

theorem accessed_dmem {i : Instr} (hi : ∀ rd rs1 rs2, i ≠ .store rd rs1 rs2) (s : State) :
    (accessed i s).dmem = s.dmem := by
  rcases accessed_cases i s with ⟨_, rs1, rs2, _, h⟩ | ⟨_, _, _, h, _⟩ | h
  · obtain ⟨_, _, _, hread, _⟩ := memRead_frame s (effAddr s rs1 rs2)
    rw [h, hread]
  · exact absurd h (hi _ _ _)
  · rw [h]

theorem accessed_of_no_access {i : Instr} (hi : ∀ rd rs1 rs2, i ≠ .store rd rs1 rs2 ∧ i ≠ .load rd rs1 rs2)
    (s : State) : accessed i s = s := by
  rcases accessed_cases i s with ⟨rd, rs1, rs2, h, _⟩ | ⟨rd, rs1, rs2, h, _⟩ | h
  · obtain ⟨_, hload⟩ := hi rd rs1 rs2
    exact absurd h hload
  · obtain ⟨hstore, _⟩ := hi rd rs1 rs2
    exact absurd h hstore
  · exact h

/-! ### The record of device accesses -/

theorem events_of_storageStep {m m' : Storage} (h : StorageStep m m') :
    ∃ ev : List DevEvent, m'.events = m.events ++ ev ∧ ev.length ≤ 1 := by
  cases h with
  | access => exact ⟨[_], rfl, Nat.le_refl 1⟩
  | same | writeRam | writeImem | resetRam => exact ⟨[], (List.append_nil _).symm, Nat.zero_le 1⟩

/-! ### When a step stops -/

theorem exec_goes_on (i : Instr) (s : State) : ∃ t, exec i s = .next t := by
  rcases exec_cases i s with ⟨_, h⟩ | ⟨_, _, _, h⟩ <;> exact ⟨_, h⟩

/-- The CPU has its turn, takes no interrupt and must fetch outside IMEM (R165). -/
def FetchStops (s : State) : Prop :=
  ∃ irq1 irq2 rest, cpuTurn s irq1 irq2 rest ∧ s.altair.on = false ∧ irqTaken s irq1 irq2 = none ∧
    s.cfg.imemWords ≤ s.pc.toNat

theorem step_of_fetchStops {s : State} (h : FetchStops s) : step s = .fault .ifetchOutOfRange := by
  obtain ⟨irq1, irq2, rest, hturn, hon, hirq, hpc⟩ := h
  have hirq' : irqTaken (s.withEnv rest) irq1 irq2 = none := hirq
  simp [step_of_cpuTurn hturn, cpuStep, hon, hirq', fetchExec, ifetch, Nat.not_lt.mpr hpc]

/-- A step goes on, or stops at the fetch. -/
theorem step_goes_on_or_fetchStops (s : State) : (∃ t, step s = .next t) ∨ FetchStops s := by
  rcases step_cases s with ⟨a, rest, _, hs⟩ | ⟨irq1, irq2, rest, hturn, hs⟩
  · exact .inl ⟨_, hs⟩
  · rcases cpuStep_cases irq1 irq2 (s.withEnv rest) with
      ⟨_, hc⟩ | ⟨_, k, _, hc⟩ | ⟨hon, hirq, hpc, _⟩ | ⟨_, _, _, hc⟩
    · exact .inl ⟨_, hs.trans hc⟩
    · exact .inl ⟨_, hs.trans hc⟩
    · exact .inr ⟨irq1, irq2, rest, hturn, hon, hirq, hpc⟩
    · obtain ⟨t, ht⟩ := exec_goes_on (decode (imemWord (s.withEnv rest) (s.withEnv rest).pc)) (s.withEnv rest)
      exact .inl ⟨t, (hs.trans hc).trans ht⟩

end Sys2Proof.Machine
end

section
/-! SUPPORT. The LEDs, and what Examine and Deposit do by the memory that is selected (spec/70_reset_and_hazards.md R401,
spec/60_exceptions.md R344, spec/20_memory.md R175). -/

namespace Sys2Proof.Machine

/-! ### The LEDs -/

theorem lastWritten_append_write (a b v : Word16) (events : List DevEvent) :
    lastWritten a (events ++ [.write b v]) = if b = a then some v else lastWritten a events := by
  simp [lastWritten, List.foldl_append]

theorem leds_of_off {s : State} (h : s.altair.on = false) : leds s = lastWritten 0xFFFF s.events := by
  simp [leds, h]

section
variable {s : State} (hon : s.altair.on = true)
include hon

theorem leds_imem (hsel : s.altair.sel = .imem) (ha : s.altair.addr.toNat < s.cfg.imemWords) :
    leds s = some (imemWord s s.altair.addr) := by
  simp [leds, hon, hsel, ifetch, ha]

theorem leds_ram (hsel : s.altair.sel = .data) (ha : dataRegion s.cfg s.altair.addr = .ram) :
    leds s = some (ramWord s s.altair.addr) := by
  simp [leds, hon, hsel, ha]

/-- Outside RAM the LEDs show what the last Examine read. -/
theorem leds_not_ram (hsel : s.altair.sel = .data) (ha : dataRegion s.cfg s.altair.addr ≠ .ram) :
    leds s = s.altair.shown := by
  simp [leds, hon, hsel, ha]

end

/-! ### Examine -/

theorem step_examine {s : State} {rest : List EnvEvent} (h : s.env = .host .btnu :: rest) (hon : s.altair.on = true) :
    step s = .next (examine (s.withEnv rest)) := by
  rw [step_of_host h]
  exact congrArg _ (if_pos hon)

/-- Reading IMEM is no device access. -/
theorem panelRead_imem_frame (s : State) (a : Word16) : ∃ n, (panelRead s .imem a).2 = { s with draws := n } := by
  dsimp only [panelRead]
  split <;> exact ⟨_, rfl⟩

theorem panelRead_frame (s : State) (sel : MemSel) (a : Word16) :
    ∃ ev q n, (panelRead s sel a).2 = { s with events := ev, devIn := q, draws := n } := by
  cases sel with
  | imem =>
    obtain ⟨n, h⟩ := panelRead_imem_frame s a
    exact ⟨_, _, n, h⟩
  | data =>
    obtain ⟨_, _, _, h, _⟩ := memRead_frame s a
    exact ⟨_, _, _, h⟩

/-- All an Examine can change. -/
theorem examine_frame (s : State) :
    ∃ v ev q n, examine s = { s with
      altair := { s.altair with addr := s.switches, shown := some v }, events := ev, devIn := q, draws := n } := by
  obtain ⟨ev, q, n, h⟩ := panelRead_frame s s.altair.sel s.switches
  refine ⟨(panelRead s s.altair.sel s.switches).1, ev, q, n, ?_⟩
  rw [examine, h]
  rfl

theorem examine_imem {s : State} (hsel : s.altair.sel = .imem) :
    (examine s).events = s.events ∧ (examine s).devIn = s.devIn := by
  obtain ⟨n, h⟩ := panelRead_imem_frame s s.switches
  rw [examine, hsel, h]
  exact ⟨rfl, rfl⟩

theorem examine_data {s : State} (hsel : s.altair.sel = .data) :
    examine s = (memRead s s.switches).2.withAltair
      { s.altair with addr := s.switches, shown := some (memRead s s.switches).1 } := by
  rw [examine, hsel]
  rfl

theorem examine_ram {s : State} (hr : dataRegion s.cfg s.switches = .ram) :
    (examine s).events = s.events ∧ (examine s).devIn = s.devIn := by
  cases hsel : s.altair.sel with
  | imem => exact examine_imem hsel
  | data =>
    rw [examine_data hsel, memRead_ram hr]
    exact ⟨rfl, rfl⟩

section
variable {s : State} (hon : s.altair.on = true)
include hon

theorem leds_examine_imem (hsel : s.altair.sel = .imem) (ha : s.switches.toNat < s.cfg.imemWords) :
    leds (examine s) = some (imemWord s s.switches) := by
  obtain ⟨v, ev, q, n, h⟩ := examine_frame s
  rw [h]
  exact leds_imem hon hsel ha

theorem leds_examine_ram (hsel : s.altair.sel = .data) (hr : dataRegion s.cfg s.switches = .ram) :
    leds (examine s) = some (ramWord s s.switches) := by
  obtain ⟨v, ev, q, n, h⟩ := examine_frame s
  rw [h]
  exact leds_ram hon hsel hr

/-- An Examine in the I/O region is one read event, and the LEDs show the value it holds. -/
theorem examine_io (hsel : s.altair.sel = .data) (hio : 0x8000 ≤ s.switches.toNat) :
    ∃ v, (examine s).events = s.events ++ [.read s.switches v] ∧ leds (examine s) = some v := by
  obtain ⟨v, q, n, _, hread⟩ := memRead_io (s := s) hio
  refine ⟨v, ?_⟩
  rw [examine_data hsel, hread]
  exact ⟨rfl, leds_not_ram hon hsel (dataRegion_ne_ram_of_io s.cfg hio)⟩

end

/-! ### Deposit -/

theorem step_deposit {s : State} {rest : List EnvEvent} (h : s.env = .host .btnd :: rest) (hon : s.altair.on = true) :
    step s = .next (deposit (s.withEnv rest)) := by
  rw [step_of_host h]
  exact congrArg _ (if_pos hon)

theorem deposit_imem {s : State} (hsel : s.altair.sel = .imem) (ha : s.altair.addr.toNat < s.cfg.imemWords) :
    deposit s = (s.withImem (memInsert s.imem s.altair.addr.toNat s.switches)).withAltair
      { s.altair with addr := s.altair.addr + 1, shown := none } := by
  rw [deposit, hsel, panelWrite, if_pos ha]

section
variable {s : State} (hsel : s.altair.sel = .data)
include hsel

theorem deposit_data :
    deposit s = (memWrite s s.altair.addr s.switches).withAltair
      { s.altair with addr := s.altair.addr + 1, shown := none } := by
  rw [deposit, hsel, panelWrite]

/-- All that a Deposit to the data space can change. -/
theorem deposit_data_frame :
    ∃ d ev, deposit s = { s with
      altair := { s.altair with addr := s.altair.addr + 1, shown := none }, dmem := d, events := ev } := by
  obtain ⟨d, ev, h⟩ := memWrite_frame s s.altair.addr s.switches
  refine ⟨d, ev, ?_⟩
  rw [deposit_data hsel, h]
  rfl

theorem ramWord_deposit_other (hwf : s.dmem.wf) {a : Word16} (ha : a ≠ s.altair.addr) :
    ramWord (deposit s) a = ramWord s a := by
  rw [deposit_data hsel]
  exact ramWord_memWrite_other hwf _ ha

theorem deposit_ram (hr : dataRegion s.cfg s.altair.addr = .ram) :
    ramWord (deposit s) s.altair.addr = s.switches ∧ (deposit s).events = s.events := by
  rw [deposit_data hsel, memWrite_ram hr]
  exact ⟨ramWord_withDmem_same s _ _, rfl⟩

theorem deposit_hole (hr : dataRegion s.cfg s.altair.addr = .hole) :
    (deposit s).dmem = s.dmem ∧ (deposit s).events = s.events := by
  rw [deposit_data hsel, memWrite_hole hr]
  exact ⟨rfl, rfl⟩

theorem deposit_io (hio : 0x8000 ≤ s.altair.addr.toNat) :
    (deposit s).dmem = s.dmem ∧ (deposit s).events = s.events ++ [.write s.altair.addr s.switches] := by
  rw [deposit_data hsel, memWrite_io hio]
  exact ⟨rfl, rfl⟩

end

end Sys2Proof.Machine
end

section
/-! PROOF. The obligations that cite spec/20_memory.md. -/

namespace Sys2Proof.Machine

/-- Settles O27, region by region. -/
theorem dataAddressMap : Obligations.DataAddressMap := by
  intro p a hp n listed
  have hlisted : (devRowAt a).isSome ↔ listed := devRowAt_isSome_iff a
  refine ⟨?ram, dataRegion_hole_iff p a, ?device, ?unmapped⟩
  case ram =>
    rw [dataRegion_ram_iff]
    omega
  case device =>
    rw [← hlisted, Option.isSome_iff_exists]
    constructor
    · rintro ⟨row, hr, _⟩
      obtain ⟨_, hrow⟩ := (dataRegion_device_iff p a row).mp hr
      exact ⟨row, hrow⟩
    · rintro ⟨row, hrow⟩
      have hio : 0x8000 ≤ a.toNat := isListed_io (hlisted.mp (Option.isSome_of_eq_some hrow))
      exact ⟨row, (dataRegion_device_iff p a row).mpr ⟨hio, hrow⟩, addr_of_devRowAt hrow⟩
  case unmapped => rw [dataRegion_ioUnmapped_iff, ← hlisted, Option.not_isSome_iff_eq_none]

/-- Settles O29: the commit of the one recorded read, whose value is by the register at the address. -/
theorem loadReadsDevice : Obligations.LoadReadsDevice := by
  intro s rd rs1 rs2 hio
  obtain ⟨v, q, n, hval, hread⟩ := memRead_io (s := s) hio
  have hexec := exec_load rd rs1 rs2 s
  rw [hread] at hexec
  obtain ⟨hreg, ⟨himem, hram, hevents, hdevIn⟩, hsys⟩ := commit_only [rs1, rs2] [rs1, rs2] (some (rd, mkVal false v))
    { s with events := s.events ++ [.read (effAddr s rs1 rs2) v], devIn := q, draws := n }
  refine ⟨_, v, hexec, hreg, hevents, himem, hram, hsys, ?_⟩
  rw [hdevIn]
  exact ⟨ioRead_switches hval, ioRead_unmapped hval, ioRead_nothing_queued hval,
    fun row q w hr hrow hq => ioRead_queued hval hr hrow hq⟩

/-- Settles O32: the commit after the one recorded write. -/
theorem storeToIoIsOneEvent : Obligations.StoreToIoIsOneEvent := by
  intro s rd rs1 rs2 hio
  have hexec := exec_store rd rs1 rs2 s
  rw [memWrite_io hio] at hexec
  obtain ⟨hreg, ⟨himem, hram, hevents, hdevIn⟩, hsys⟩ := commit_only [rd, rs1, rs2] [rd, rs1, rs2] none
    (s.record (.write (effAddr s rs1 rs2) (dataOf (srcVal s rd))))
  refine ⟨_, hexec, hreg, hevents, himem, hram, hdevIn, hsys, fun hoff => ?_⟩
  obtain ⟨_, _, _, _, _, haltair, _⟩ := hsys
  rw [leds_of_off (haltair ▸ hoff), leds_of_off hoff, hevents]
  exact lastWritten_append_write _ _ _ _

/-- Settles O34: the STORE leaves the two address registers, so the LOAD reads the word it wrote. -/
theorem storeThenLoadReturnsData : Obligations.StoreThenLoadReturnsData := by
  intro s rn rm ra rb ea hn hm ha hb hea hlt hlt'
  have hram : dataRegion s.cfg ea = .ram := (dataRegion_ram_iff _ _).mpr ⟨hlt', hlt⟩
  have heas : effAddr s ra rb = ea := (effAddr_of_isPlain ha hb s).trans hea.symm
  have hstore := exec_store rn ra rb s
  rw [heas, memWrite_ram hram, srcVal_of_ne_r13 (ne_r13_of_isPlain hn)] at hstore
  obtain ⟨hreg, ⟨_, hword, _⟩, _, _, _, hcfg, _⟩ := commit_only [rn, ra, rb] [rn, ra, rb] none
    (s.withDmem (memInsert s.dmem ea.toNat (dataOf (destVal s rn))))
  generalize commit [rn, ra, rb] [rn, ra, rb] none _ = t at *
  have hkeeps : ∀ r, isPlain r = true → destVal t r = destVal s r := by
    intro r hr
    rw [destVal_of_registersCommit hreg hr]
    cases r <;> rfl
  have heat : effAddr t ra rb = ea := by
    rw [effAddr_of_isPlain ha hb, hkeeps ra ha, hkeeps rb hb, hea]
  have hload := exec_load rm ra rb t
  rw [heat, memRead_ram (hcfg ▸ hram), hword, ramWord_withDmem_same] at hload
  refine ⟨t, _, hstore, hload, ?_⟩
  rw [destVal_of_registersCommit (commit_registers _ _ _ _) hm]
  simp [destAt]

/-- Settles O35: the return from an interrupt touches no memory, and a commit keeps what the data access leaves. -/
theorem onlyStoreWritesMemory : Obligations.OnlyStoreWritesMemory := by
  intro i s
  rcases exec_cases i s with ⟨_, h⟩ | ⟨_, dest, _, h⟩
  · refine ⟨_, h, ?_⟩
    rw [returnFromInterrupt_eq]
    exact ⟨rfl, rfl, fun _ => rfl, fun _ => ⟨rfl, rfl⟩⟩
  · obtain ⟨himem, hepoch⟩ := accessed_imem i s
    refine ⟨_, h, (commit_imem ..).trans himem, (commit_dmemEpoch ..).trans hepoch, fun hi => ?_, fun hi => ?_⟩
    · rw [commit_dmem, accessed_dmem hi]
    · rw [commit_events, commit_devIn, accessed_of_no_access hi]
      exact ⟨rfl, rfl⟩

/-- Settles O36, from what one step can do to the storage. -/
theorem eventsGrowInOrder : Obligations.EventsGrowInOrder :=
  fun _ _ h => events_of_storageStep (storageStep_step h)

/-- Settles O46: a step goes on or stops at the fetch, and never both. -/
theorem stepStopsOnlyOutsideImem : Obligations.StepStopsOnlyOutsideImem := by
  intro s
  rcases step_goes_on_or_fetchStops s with ⟨t, ht⟩ | hstops
  · rw [ht]
    refine ⟨nofun, fun f => ⟨nofun, ?_⟩⟩
    rintro ⟨_, hstops⟩
    cases ht.symm.trans (step_of_fetchStops hstops)
  · rw [step_of_fetchStops hstops]
    refine ⟨nofun, fun f => ⟨fun hf => ⟨(Host.Outcome.fault.inj hf).symm, hstops⟩, ?_⟩⟩
    rintro ⟨rfl, _⟩
    rfl

/-- Settles O54: the Deposit is one insertion into IMEM. -/
theorem depositWritesImem : Obligations.DepositWritesImem := by
  intro s rest henv hon hsel ha hwf
  have hstep := step_deposit henv hon
  rw [deposit_imem (s := s.withEnv rest) hsel ha] at hstep
  exact ⟨_, hstep, imemWord_withImem_same s _ _, fun a hne => imemWord_withImem_other hwf _ hne, rfl, hon, hsel, rfl⟩

/-- Settles O55: the Deposit is one data write, by the region of the address. -/
theorem depositWritesDmem : Obligations.DepositWritesDmem := by
  intro s rest henv hon hsel hwf
  refine ⟨_, step_deposit henv hon, ?addr, ?on, ?sel, ?frame,
    fun a => ramWord_deposit_other (s := s.withEnv rest) hsel hwf,
    deposit_ram (s := s.withEnv rest) hsel, deposit_hole (s := s.withEnv rest) hsel,
    deposit_io (s := s.withEnv rest) hsel⟩
  all_goals
    obtain ⟨d, ev, h⟩ := deposit_data_frame (s := s.withEnv rest) hsel
    rw [h]
  case addr | frame => rfl
  case on => exact hon
  case sel => exact hsel

/-- Settles O56: the Examine is one panel read, by the memory that is selected and the region of the address. -/
theorem examineShowsWord : Obligations.ExamineShowsWord := by
  intro s rest henv hon
  refine ⟨_, step_examine henv hon, ?addr, ?sel, ?on, ?imem, ?ram, ?frame, examine_imem (s := s.withEnv rest),
    examine_ram (s := s.withEnv rest), leds_examine_imem (s := s.withEnv rest) hon,
    leds_examine_ram (s := s.withEnv rest) hon, examine_io (s := s.withEnv rest) hon⟩
  all_goals
    obtain ⟨v, ev, q, n, h⟩ := examine_frame (s.withEnv rest)
    rw [h]
  case on => exact hon
  case imem | ram => exact fun _ => rfl
  case addr | sel | frame => rfl

/-- Settles O30: the read only draws a free value. -/
theorem loadFromHoleGoesOn : Obligations.LoadFromHoleGoesOn := by
  intro s rd rs1 rs2 hr
  have hexec := exec_load rd rs1 rs2 s
  rw [memRead_hole hr] at hexec
  exact ⟨_, _, hexec, commit_only _ _ _ s.bump⟩

/-- Settles O33: the write leaves the state as it was. -/
theorem storeToHoleHasNoEffect : Obligations.StoreToHoleHasNoEffect := by
  intro s rd rs1 rs2 hr
  have hexec := exec_store rd rs1 rs2 s
  rw [memWrite_hole hr] at hexec
  exact ⟨_, hexec, commit_only _ _ _ s⟩

end Sys2Proof.Machine
end

section
/-! SUPPORT. The fields of an instruction word: register fields and their numbers, the fields of a word built by each
format, and the word rebuilt from its fields (spec/30_encoding.md R191, R192, R202). -/

namespace Sys2Proof

open Machine (regNumber)

/-! ### Register fields -/

@[simp] theorem regOfBits_regBits (r : Reg) : regOfBits (regBits r) = r := by
  cases r with
  | lo i => exact (by decide : ∀ i : Fin 8, regOfBits (regBits (.lo i)) = .lo i) i
  | hi i => exact (by decide : ∀ i : Fin 5, regOfBits (regBits (.hi i)) = .hi i) i
  | r13 | r14 | r15 => rfl

/-- Every field value names a register, and no two name the same (R191, R198). -/
@[simp] theorem regBits_regOfBits (b : BitVec 4) : regBits (regOfBits b) = b := by
  revert b
  decide

theorem regBits_toNat (r : Reg) : (regBits r).toNat = regNumber r := by
  cases r with
  | lo i => exact (by decide : ∀ i : Fin 8, (regBits (.lo i)).toNat = i.val) i
  | hi i => exact (by decide : ∀ i : Fin 5, (regBits (.hi i)).toNat = 8 + i.val) i
  | r13 | r14 | r15 => rfl

/-! ### The fields of a word built by a format -/

/-- Format `R` is format `I4` with a register's number in bits 3:0. -/
theorem encodeR_eq_encodeI4 (op : BitVec 4) (rd rs1 rs2 : Reg) :
    encodeR op rd rs1 rs2 = encodeI4 op rd rs1 (regBits rs2) := rfl

theorem fieldRs2_eq (w : Word16) : fieldRs2 w = regOfBits (fieldImm4 w) := rfl

section
variable (op : BitVec 4) (rd rs1 rs2 : Reg) (imm4 : BitVec 4) (imm8 : BitVec 8)

@[simp] theorem opcode_encodeI4 : (encodeI4 op rd rs1 imm4).extractLsb' 12 4 = op :=
  calc (encodeI4 op rd rs1 imm4).extractLsb' 12 4
    _ = (op ++ regBits rd ++ regBits rs1).extractLsb' 8 4 := BitVec.extractLsb'_append_eq_of_le (by decide)
    _ = (op ++ regBits rd).extractLsb' 4 4 := BitVec.extractLsb'_append_eq_of_le (by decide)
    _ = op := BitVec.extractLsb'_append_eq_left

@[simp] theorem fieldRd_encodeI4 : fieldRd (encodeI4 op rd rs1 imm4) = rd :=
  calc fieldRd (encodeI4 op rd rs1 imm4)
    _ = regOfBits ((op ++ regBits rd ++ regBits rs1).extractLsb' 4 4) :=
      congrArg regOfBits (BitVec.extractLsb'_append_eq_of_le (by decide))
    _ = regOfBits ((op ++ regBits rd).extractLsb' 0 4) :=
      congrArg regOfBits (BitVec.extractLsb'_append_eq_of_le (by decide))
    _ = rd := by rw [BitVec.extractLsb'_append_eq_right, regOfBits_regBits]

@[simp] theorem fieldRs1_encodeI4 : fieldRs1 (encodeI4 op rd rs1 imm4) = rs1 :=
  calc fieldRs1 (encodeI4 op rd rs1 imm4)
    _ = regOfBits ((op ++ regBits rd ++ regBits rs1).extractLsb' 0 4) :=
      congrArg regOfBits (BitVec.extractLsb'_append_eq_of_le (by decide))
    _ = rs1 := by rw [BitVec.extractLsb'_append_eq_right, regOfBits_regBits]

@[simp] theorem fieldImm4_encodeI4 : fieldImm4 (encodeI4 op rd rs1 imm4) = imm4 :=
  BitVec.extractLsb'_append_eq_right

@[simp] theorem opcode_encodeR : (encodeR op rd rs1 rs2).extractLsb' 12 4 = op := opcode_encodeI4 _ _ _ _
@[simp] theorem fieldRd_encodeR : fieldRd (encodeR op rd rs1 rs2) = rd := fieldRd_encodeI4 _ _ _ _
@[simp] theorem fieldRs1_encodeR : fieldRs1 (encodeR op rd rs1 rs2) = rs1 := fieldRs1_encodeI4 _ _ _ _

@[simp] theorem fieldRs2_encodeR : fieldRs2 (encodeR op rd rs1 rs2) = rs2 := by
  rw [fieldRs2_eq, encodeR_eq_encodeI4, fieldImm4_encodeI4, regOfBits_regBits]

@[simp] theorem opcode_encodeI8 : (encodeI8 op rd imm8).extractLsb' 12 4 = op :=
  calc (encodeI8 op rd imm8).extractLsb' 12 4
    _ = (op ++ regBits rd).extractLsb' 4 4 := BitVec.extractLsb'_append_eq_of_le (by decide)
    _ = op := BitVec.extractLsb'_append_eq_left

@[simp] theorem fieldRd_encodeI8 : fieldRd (encodeI8 op rd imm8) = rd :=
  calc fieldRd (encodeI8 op rd imm8)
    _ = regOfBits ((op ++ regBits rd).extractLsb' 0 4) :=
      congrArg regOfBits (BitVec.extractLsb'_append_eq_of_le (by decide))
    _ = rd := by rw [BitVec.extractLsb'_append_eq_right, regOfBits_regBits]

@[simp] theorem fieldImm8_encodeI8 : fieldImm8 (encodeI8 op rd imm8) = imm8 :=
  BitVec.extractLsb'_append_eq_right

/-! ### The word of a format as shifted fields -/

theorem encodeI4_toNat : (encodeI4 op rd rs1 imm4).toNat =
    op.toNat <<< 12 ||| regNumber rd <<< 8 ||| regNumber rs1 <<< 4 ||| imm4.toNat := by
  simp only [encodeI4, BitVec.toNat_append, regBits_toNat, Nat.shiftLeft_or_distrib, ← Nat.shiftLeft_add]

theorem encodeR_toNat : (encodeR op rd rs1 rs2).toNat =
    op.toNat <<< 12 ||| regNumber rd <<< 8 ||| regNumber rs1 <<< 4 ||| regNumber rs2 := by
  rw [encodeR_eq_encodeI4, encodeI4_toNat, regBits_toNat]

theorem encodeI8_toNat : (encodeI8 op rd imm8).toNat =
    op.toNat <<< 12 ||| regNumber rd <<< 8 ||| imm8.toNat := by
  simp only [encodeI8, BitVec.toNat_append, regBits_toNat, Nat.shiftLeft_or_distrib, ← Nat.shiftLeft_add]

end

/-! ### A word rebuilt from its fields -/

section
variable {w : Word16} {op : BitVec 4} (h : (w.extractLsb' 12 4).toNat = op.toNat)
include h

theorem encodeI4_fields : encodeI4 op (fieldRd w) (fieldRs1 w) (fieldImm4 w) = w := by
  obtain rfl : w.extractLsb' 12 4 = op := BitVec.eq_of_toNat_eq h
  rw [encodeI4, fieldRd, fieldRs1, fieldImm4, regBits_regOfBits, regBits_regOfBits,
    BitVec.extractLsb'_append_extractLsb'_eq_extractLsb' (start₂ := 12) (start₁ := 8) rfl,
    BitVec.extractLsb'_append_extractLsb'_eq_extractLsb' (start₂ := 8) (start₁ := 4) rfl,
    BitVec.extractLsb'_append_extractLsb'_eq_extractLsb' (start₂ := 4) (start₁ := 0) rfl]
  exact BitVec.extractLsb'_eq_self

theorem encodeR_fields : encodeR op (fieldRd w) (fieldRs1 w) (fieldRs2 w) = w := by
  rw [encodeR_eq_encodeI4, fieldRs2_eq, regBits_regOfBits, encodeI4_fields h]

theorem encodeI8_fields : encodeI8 op (fieldRd w) (fieldImm8 w) = w := by
  obtain rfl : w.extractLsb' 12 4 = op := BitVec.eq_of_toNat_eq h
  rw [encodeI8, fieldRd, fieldImm8, regBits_regOfBits,
    BitVec.extractLsb'_append_extractLsb'_eq_extractLsb' (start₂ := 12) (start₁ := 8) rfl,
    BitVec.extractLsb'_append_extractLsb'_eq_extractLsb' (start₂ := 8) (start₁ := 0) rfl]
  exact BitVec.extractLsb'_eq_self

end

/-! ### The row of the opcode table -/

/-- Away from the two pseudo-operations the opcode field selects the row the word was built by. -/
theorem decodeRow_encode {i : Instr} (hnop : i ≠ .nop) (hiret : i ≠ .iret) : decodeRow (encode i) = i := by
  cases i
  case nop => exact absurd rfl hnop
  case iret => exact absurd rfl hiret
  all_goals simp [encode, decodeRow]

theorem encode_decodeRow (w : Word16) : encode (decodeRow w) = w := by
  have hop := (w.extractLsb' 12 4).isLt
  unfold decodeRow
  split
  case h_9 h | h_10 h => exact encodeI8_fields h
  case h_11 h | h_15 h => exact encodeI4_fields h
  case h_16 =>
    have h : (w.extractLsb' 12 4).toNat = 15 := by
      simp only [imp_false] at *
      omega
    exact encodeI4_fields h
  all_goals exact encodeR_fields ‹_›

theorem wellFormed_iff (i : Instr) : i.wellFormed = true ↔ i ≠ .and .r0 .r0 .r0 ∧ i ≠ .sui .r15 0x00#8 := by
  simp [Instr.wellFormed]

/-- The two words with a pseudo-operation's name, and all others (R200). -/
theorem decode_cases (w : Word16) :
    (w = 0x0000#16 ∧ decode w = .nop) ∨ (w = 0x9F00#16 ∧ decode w = .iret) ∨
    (w ≠ 0x0000#16 ∧ w ≠ 0x9F00#16 ∧ decode w = decodeRow w) := by
  unfold decode
  split
  · exact .inl ⟨‹_›, rfl⟩
  · split
    · exact .inr (.inl ⟨‹_›, rfl⟩)
    · exact .inr (.inr ⟨‹_›, ‹_›, rfl⟩)

/-- If the word of a well-formed instruction had a pseudo-operation's name, its row would be the second spelling. -/
theorem decode_encode {i : Instr} (hwf : i.wellFormed = true) : decode (encode i) = i := by
  obtain ⟨hand, hsui⟩ := (wellFormed_iff i).mp hwf
  by_cases hnop : i = .nop
  · rw [hnop]
    rfl
  by_cases hiret : i = .iret
  · rw [hiret]
    rfl
  have hrow := decodeRow_encode hnop hiret
  rcases decode_cases (encode i) with ⟨hw, _⟩ | ⟨hw, _⟩ | ⟨_, _, hdec⟩
  · rw [hw] at hrow
    exact absurd hrow.symm hand
  · rw [hw] at hrow
    exact absurd hrow.symm hsui
  · exact hdec.trans hrow

theorem decode_of_encode {i : Instr} {w : Word16} (hw : encode i = w) (hwf : i.wellFormed = true) : decode w = i :=
  hw ▸ decode_encode hwf

theorem encode_decode (w : Word16) : encode (decode w) = w := by
  rcases decode_cases w with ⟨rfl, hdec⟩ | ⟨rfl, hdec⟩ | ⟨_, _, hdec⟩ <;> rw [hdec]
  · rfl
  · rfl
  · exact encode_decodeRow w

/-- A second spelling would be the decoding of a word with a pseudo-operation's name. -/
theorem wellFormed_decode (w : Word16) : (decode w).wellFormed = true := by
  refine (wellFormed_iff _).mpr ⟨fun hand => ?_, fun hsui => ?_⟩
  · have hw : w = 0x0000#16 := by
      rw [← encode_decode w, hand]
      rfl
    subst hw
    cases hand
  · have hw : w = 0x9F00#16 := by
      rw [← encode_decode w, hsui]
      rfl
    subst hw
    cases hsui

end Sys2Proof
end

section
/-! SUPPORT. The destination and the stack after a write of any register but R15, the constant that SUI and ALI build,
and CAIF, SUI and a branch as commits (spec/10_state.md R137, R140, spec/43_immediate.md R251, R252,
spec/46_conditional.md R277). -/

namespace Sys2Proof.Machine

/-! ### The register written -/

section
variable {reads decs : List Reg} {s t : State} {v : RegVal}

/-- A modify-top puts the value on top. -/
theorem stackCommit_modify (h : StackCommit reads (some (.r14, v)) s t) (hr : .r14 ∈ reads) (hsp : s.sp ≠ 0) :
    t.sp = s.sp ∧ stackTop t = v := by
  have hmodify : t.sp = s.sp ∧
      ∀ j : Fin 8, t.stk[j.val] = if j.val + 1 = s.sp.val then v else s.stk[j.val] := by
    simp only [StackCommit, hr, decide_true, destAt, if_true] at h
    exact h hsp
  obtain ⟨htsp, hstk⟩ := hmodify
  obtain ⟨j, hj⟩ : ∃ j : Fin 8, s.sp.val = j.val + 1 := by
    have h0 : s.sp.val ≠ 0 := fun e => hsp (Fin.ext e)
    exact ⟨⟨s.sp.val - 1, by omega⟩, by simp only; omega⟩
  refine ⟨htsp, ?_⟩
  rw [stackTop_of_sp (j := j) (by rw [htsp, hj]), hstk, if_pos hj.symm]

/-- The destination reads as the value written; R14 where the stack is neither full nor empty for the action. -/
theorem destVal_written {rd : Reg} (h : RegistersCommit reads decs (some (rd, v)) s t) (h15 : rd ≠ .r15)
    (h14 : rd = .r14 → s.sp ≠ if .r14 ∈ reads then 0 else 8) : destVal t rd = v := by
  cases rd with
  | lo i | hi i =>
    rw [destVal_of_registersCommit h (by rfl)]
    simp [destAt]
  | r13 =>
    obtain ⟨_, _, hr13, _⟩ := h
    exact hr13
  | r14 =>
    have hst := stackCommit_of_registersCommit h
    by_cases hr : .r14 ∈ reads
    · obtain ⟨_, htop⟩ := stackCommit_modify hst hr (by simpa [hr] using h14 rfl)
      exact htop
    · obtain ⟨_, htop, _⟩ := stackCommit_push hst hr (by simpa [hr] using h14 rfl)
      exact htop
  | r15 => exact absurd rfl h15

/-- A write of another register than R15 is no branch. -/
theorem pc_of_write {rd : Reg} (h : RegistersCommit reads decs (some (rd, v)) s t) (h15 : rd ≠ .r15) :
    t.pc = s.pc + 1 := by
  simp [pc_of_registersCommit h, destAt, h15]

end

/-! ### The constant of SUI and ALI -/

/-- The byte that ALI adds fills the byte that SUI cleared, with no carry. -/
theorem aliVal_suiVal (t : RegVal) (hi lo : BitVec 8) :
    aliVal .zero (suiVal .clear t hi) lo = mkVal false (hi ++ lo) := by
  have hsui : (dataOf (suiVal .clear t hi)).toNat = hi.toNat * 256 := by
    rw [suiVal, dataOf_mkVal, suiLowByte, BitVec.toNat_append, Nat.shiftLeft_eq]
    simp
  have happ : (hi ++ lo).toNat = hi.toNat * 256 + lo.toNat := by
    rw [BitVec.toNat_append, ← Nat.shiftLeft_add_eq_or_of_lt lo.isLt, Nat.shiftLeft_eq]
  obtain ⟨hdata, hflag⟩ := aliVal_zero (suiVal .clear t hi) lo
  rw [hsui] at hdata hflag
  have hhi := hi.isLt
  have hlo := lo.isLt
  apply regVal_ext
  · rw [hflag, flagOf_mkVal, decide_eq_false_iff_not]
    omega
  · apply BitVec.eq_of_toNat_eq
    rw [hdata, dataOf_mkVal, happ]
    omega

/-! ### Instructions as commits -/

theorem exec_sui (rd : Reg) (imm8 : BitVec 8) (s : State) :
    exec (.sui rd imm8) s =
      .next (commit (suiReads s.cfg.suiLow rd) [] (some (rd, suiVal s.cfg.suiLow (destVal s rd) imm8)) s) := rfl

theorem exec_iret_outside {s : State} (h : s.isrActive = false) : exec .iret s = exec (.sui .r15 0x00#8) s := by
  simp [exec, execIret, execSui, h]

theorem exec_caif_taken {rd rs1 : Reg} {s : State} (h : flagOf (srcVal s rs1) = true) (imm4 : BitVec 4) :
    exec (.caif rd rs1 imm4) s =
      .next (commit [rs1, rd] [rs1] (some (rd, addiVal s.cfg.imm4Ext (rdVal [rs1] s rd) imm4)) s) := by
  simp [exec, execCaif, conditionalAdd, h]

theorem exec_caif_not_taken {rs1 : Reg} {s : State} (h : flagOf (srcVal s rs1) = false) (rd : Reg)
    (imm4 : BitVec 4) : exec (.caif rd rs1 imm4) s = .next (commit [rs1] [rs1] none s) := by
  simp [exec, execCaif, conditionalAdd, h]

/-- A branch that reads no register only writes R15. -/
theorem commit_branch (v : RegVal) (s : State) : commit [] [] (some (.r15, v)) s = s.withR15 v := by
  simp [commit, commitDec, commitStack, commitPlain, commitPc, destAt]

end Sys2Proof.Machine
end

section
/-! PROOF. The obligations that cite spec/30_encoding.md. -/

namespace Sys2Proof.Machine

/-- Settles O1, row by row and by the one-spelling rule. -/
theorem decodeEncodeRoundTrip : Obligations.DecodeEncodeRoundTrip := fun _ => decode_encode

/-- Settles O2: the fields of a word are all of its bits. -/
theorem everyWordIsAnInstruction : Obligations.EveryWordIsAnInstruction :=
  fun w => ⟨wellFormed_decode w, encode_decode w⟩

/-- Settles O3, format by format. -/
theorem encodingFollowsFieldLayout : Obligations.EncodingFollowsFieldLayout := by
  intro rd rs1 rs2 imm4 imm8 r i4 i8
  have hr (op : BitVec 4) : (encodeR op rd rs1 rs2).toNat = r op.toNat := encodeR_toNat op rd rs1 rs2
  have hi4 (op : BitVec 4) : (encodeI4 op rd rs1 imm4).toNat = i4 op.toNat := encodeI4_toNat op rd rs1 imm4
  have hi8 (op : BitVec 4) : (encodeI8 op rd imm8).toNat = i8 op.toNat := encodeI8_toNat op rd imm8
  exact ⟨hr _, hr _, hr _, hr _, hr _, hr _, hr _, hr _, hi8 _, hi8 _, hi4 _, hr _, hr _, hr _, hi4 _, hi4 _,
    rfl, rfl, rfl, rfl⟩

/-- Settles O24: SUI puts hi above a cleared byte, and ALI reads that value back and fills the byte. -/
theorem suiThenAliLoadsConstant : Obligations.SuiThenAliLoadsConstant := by
  intro s rd hi lo h15 hroom hclear hzero
  have hsui := exec_sui rd hi s
  rw [hclear, suiReads] at hsui
  obtain ⟨hreg, _, hsys⟩ := commit_only [] [] (some (rd, suiVal .clear (destVal s rd) hi)) s
  generalize commit [] [] _ s = t at *
  obtain ⟨_, _, _, hcfg, _⟩ := hsys
  have hval : destVal t rd = suiVal .clear (destVal s rd) hi := destVal_written hreg h15 (by simpa using hroom)
  have hali := exec_ali rd lo t
  rw [hcfg, hzero, hval, aliVal_suiVal] at hali
  have hreg' := commit_registers [rd] [] (some (rd, mkVal false (hi ++ lo))) t
  refine ⟨t, _, hsui, hali, destVal_written hreg' h15 ?_, ?_⟩
  · rintro rfl
    obtain ⟨htsp, _⟩ := stackCommit_push (stackCommit_of_registersCommit hreg) (by simp) (hroom rfl)
    rw [if_pos (List.mem_singleton_self _)]
    exact fun e => by simp [e] at htsp
  · rw [pc_of_write hreg' h15, pc_of_write hreg h15]
    exact BitVec.add_assoc _ _ _

/-- Settles O26, by the flag and then by the sign of the extended imm4. -/
theorem caifAddsWhenFlag : Obligations.CaifAddsWhenFlag := by
  intro s rd rs1 imm4 c d k
  constructor
  · intro hflag
    refine ⟨_, addiVal s.cfg.imm4Ext (rdVal [rs1] s rd) imm4, exec_caif_taken hflag imm4, commit_only _ _ _ _,
      addiVal_nonneg _, ?_⟩
    rintro ⟨hsign, hk⟩
    rw [hsign]
    exact addiVal_neg _ hk
  · intro hflag
    exact ⟨_, exec_caif_not_taken hflag rd imm4, commit_only _ _ _ _⟩

/-- Settles O4: each word is that of its instruction, written out. -/
theorem sampleWordsDecode : Obligations.SampleWordsDecode := by
  refine ⟨?_, ?_, ?_, ?_, ?_, ?_, ?_, ?_, ?_, ?_⟩
  all_goals exact decode_of_encode rfl rfl

/-- Settles O38: the SUI that the word is, and with the low byte cleared a branch to 0 that reads nothing. -/
theorem iretOutsideIsrIsSui : Obligations.IretOutsideIsrIsSui := by
  intro s hisr
  refine ⟨exec_iret_outside hisr, fun hclear => ?_⟩
  have hzero : suiVal .clear (destVal s .r15) 0x00#8 = 0 := by
    rw [suiVal, suiLowByte]
    rfl
  rw [exec_iret_outside hisr, exec_sui, hclear, hzero, suiReads, commit_branch]
  rfl

/-- Settles O44, from all that an instruction can do. -/
theorem everyInstructionCompletes : Obligations.EveryInstructionCompletes := exec_goes_on

end Sys2Proof.Machine
end

section
/-! SUPPORT. Flag and data of a bitwise operation on register values and of a logic result, and the logic instructions
as commits (spec/40_logic.md R220 to R224). -/

namespace Sys2Proof.Machine

/-! ### Bitwise operations on register values -/

section
variable (a b : RegVal)

@[simp] theorem dataOf_and : dataOf (a &&& b) = dataOf a &&& dataOf b := BitVec.setWidth_and
@[simp] theorem dataOf_or : dataOf (a ||| b) = dataOf a ||| dataOf b := BitVec.setWidth_or
@[simp] theorem dataOf_xor : dataOf (a ^^^ b) = dataOf a ^^^ dataOf b := BitVec.setWidth_xor
@[simp] theorem dataOf_not : dataOf (~~~a) = ~~~(dataOf a) := BitVec.setWidth_not (by decide)

@[simp] theorem flagOf_and : flagOf (a &&& b) = (flagOf a && flagOf b) := BitVec.getLsbD_and
@[simp] theorem flagOf_or : flagOf (a ||| b) = (flagOf a || flagOf b) := BitVec.getLsbD_or
@[simp] theorem flagOf_xor : flagOf (a ^^^ b) = (flagOf a ^^ flagOf b) := BitVec.getLsbD_xor
@[simp] theorem flagOf_not : flagOf (~~~a) = !flagOf a := BitVec.getLsbD_not

end

/-! ### The logic result -/

@[simp] theorem dataOf_logicResult (width : LogicWidth) (v : RegVal) : dataOf (logicResult width v) = dataOf v := by
  cases width with
  | w17 => rfl
  | w16 => exact dataOf_zext17 (dataOf v)

@[simp] theorem flagOf_logicResult (width : LogicWidth) (v : RegVal) :
    flagOf (logicResult width v) = ((width == .w17) && flagOf v) := by
  cases width with
  | w17 => rfl
  | w16 => exact flagOf_zext17 (dataOf v)

/-! ### Instructions as commits -/

section
variable (rd rs1 rs2 : Reg) (s : State)

theorem exec_and : exec (.and rd rs1 rs2) s = .next (commit [rs1, rs2] [rs1, rs2]
    (some (rd, logicResult s.cfg.logicWidth (srcVal s rs1 &&& srcVal s rs2))) s) := rfl

theorem exec_nand : exec (.nand rd rs1 rs2) s = .next (commit [rs1, rs2] [rs1, rs2]
    (some (rd, logicResult s.cfg.logicWidth (~~~(srcVal s rs1 &&& srcVal s rs2)))) s) := rfl

theorem exec_or : exec (.or rd rs1 rs2) s = .next (commit [rs1, rs2] [rs1, rs2]
    (some (rd, logicResult s.cfg.logicWidth (srcVal s rs1 ||| srcVal s rs2))) s) := rfl

theorem exec_xor : exec (.xor rd rs1 rs2) s = .next (commit [rs1, rs2] [rs1, rs2]
    (some (rd, logicResult s.cfg.logicWidth (srcVal s rs1 ^^^ srcVal s rs2))) s) := rfl

end

/-- An instruction that commits a logic result writes its data, and its flag by `LOGIC_WIDTH`. -/
theorem commits_logicResult {i : Instr} {rd rs1 rs2 : Reg} {s : State} {r : RegVal}
    (hexec : exec i s =
      .next (commit [rs1, rs2] [rs1, rs2] (some (rd, logicResult s.cfg.logicWidth r)) s)) :
    ∃ t v, exec i s = .next t ∧ CommitsOnly [rs1, rs2] [rs1, rs2] (some (rd, v)) s t ∧
      dataOf v = dataOf r ∧ flagOf v = ((s.cfg.logicWidth == .w17) && flagOf r) :=
  ⟨_, logicResult s.cfg.logicWidth r, hexec, commit_only _ _ _ _, dataOf_logicResult _ _, flagOf_logicResult _ _⟩

end Sys2Proof.Machine
end

section
/-! PROOF. The obligations that cite spec/40_logic.md. -/

namespace Sys2Proof.Machine

/-- Settles O12: each instruction commits one bitwise operation on the 17-bit sources, which acts on the flag and on the
data apart. -/
theorem logicInstructionsWriteBitwiseResult : Obligations.LogicInstructionsWriteBitwiseResult := by
  intro s rd rs1 rs2 a b flag
  refine ⟨?and, ?nand, ?or, ?xor⟩
  case and => simpa only [dataOf_and, flagOf_and] using commits_logicResult (exec_and rd rs1 rs2 s)
  case nand =>
    simpa only [dataOf_not, flagOf_not, dataOf_and, flagOf_and] using commits_logicResult (exec_nand rd rs1 rs2 s)
  case or => simpa only [dataOf_or, flagOf_or] using commits_logicResult (exec_or rd rs1 rs2 s)
  case xor => simpa only [dataOf_xor, flagOf_xor] using commits_logicResult (exec_xor rd rs1 rs2 s)

end Sys2Proof.Machine
end

section
/-! SUPPORT. The sum and the difference of two data words with their flags, and ADD and SUB as commits
(spec/41_arith.md R230 to R232). -/

namespace Sys2Proof.Machine

/-! ### Sum and difference -/

/-- Two data words add up to less than 2^17, so no carry is lost. -/
theorem addVal_sum_carry (a b : RegVal) :
    (dataOf (addVal a b)).toNat = ((dataOf a).toNat + (dataOf b).toNat) % 65536 ∧
    flagOf (addVal a b) = decide (65536 ≤ (dataOf a).toNat + (dataOf b).toNat) := by
  have hb : (zext17 (dataOf b)).toNat < 65536 := by
    rw [zext17_toNat]
    exact (dataOf b).isLt
  simpa only [addVal, zext17_toNat] using zext17_add_carry (dataOf a) hb

/-- A negative difference wraps modulo 2^17 to at least 2^16, which is what sets bit 16. -/
theorem subVal_difference_borrow (a b : RegVal) :
    (dataOf (subVal a b)).toNat = ((dataOf a).toNat + 65536 - (dataOf b).toNat) % 65536 ∧
    flagOf (subVal a b) = decide ((dataOf a).toNat < (dataOf b).toNat) := by
  have ha := (dataOf a).isLt
  have hb := (dataOf b).isLt
  rw [dataOf_toNat, flagOf_eq_decide, subVal, BitVec.toNat_sub, zext17_toNat, zext17_toNat, decide_eq_decide]
  omega

/-! ### Instructions as commits -/

section
variable (rd rs1 rs2 : Reg) (s : State)

theorem exec_add : exec (.add rd rs1 rs2) s = .next (commit [rs1, rs2] [rs1, rs2]
    (some (rd, addVal (srcVal s rs1) (srcVal s rs2))) s) := rfl

theorem exec_sub : exec (.sub rd rs1 rs2) s = .next (commit [rs1, rs2] [rs1, rs2]
    (some (rd, subVal (srcVal s rs1) (srcVal s rs2))) s) := rfl

end

end Sys2Proof.Machine
end

section
/-! PROOF. The obligations that cite spec/41_arith.md. -/

namespace Sys2Proof.Machine

/-- Settles O14: ADD commits `addVal` of its sources, and nothing but the commit happens. -/
theorem addWritesSumAndCarry : Obligations.AddWritesSumAndCarry := by
  intro s rd rs1 rs2 a b
  exact ⟨_, addVal (srcVal s rs1) (srcVal s rs2), exec_add rd rs1 rs2 s, commit_only _ _ _ _, addVal_sum_carry _ _⟩

/-- Settles O15: SUB commits `subVal` of its sources, and nothing but the commit happens. -/
theorem subWritesDifferenceAndBorrow : Obligations.SubWritesDifferenceAndBorrow := by
  intro s rd rs1 rs2 a b
  exact ⟨_, subVal (srcVal s rs1) (srcVal s rs2), exec_sub rd rs1 rs2 s, commit_only _ _ _ _,
    subVal_difference_borrow _ _⟩

end Sys2Proof.Machine
end

section
/-! SUPPORT. The shift amount below 16 and from 16 on, flag and data of a left-shifted value, and SHL as a commit
(spec/42_shift.md R240, R242). -/

namespace Sys2Proof.Machine

/-! ### The shift amount -/

section
variable {b : RegVal}

theorem shiftAmount_of_le (h : (dataOf b).toNat ≤ 15) (mode : ShiftAmountMode) :
    shiftAmount mode b = (dataOf b).toNat := if_pos h

theorem shiftAmount_low4 (h : 16 ≤ (dataOf b).toNat) : shiftAmount .low4 b = (dataOf b).toNat % 16 :=
  if_neg (by omega)

theorem shiftAmount_low5 (h : 16 ≤ (dataOf b).toNat) : shiftAmount .low5 b = (dataOf b).toNat % 32 :=
  if_neg (by omega)

/-- The setting under which the data is the amount throughout. -/
theorem shiftAmount_full : shiftAmount .full b = (dataOf b).toNat := ite_self _

end

/-! ### The left shift -/

/-- Every bit below the flag is a data bit. -/
theorem dataOf_getLsbD (a : RegVal) {i : Nat} (hi : i < 16) : (dataOf a).getLsbD i = a.getLsbD i := by
  simp [dataOf, hi]

theorem dataOf_shlVal (a : RegVal) (n : Nat) : dataOf (shlVal a n) = dataOf a <<< n :=
  BitVec.setWidth_shiftLeft_of_le (by decide)

theorem shlVal_data_arith (a : RegVal) (n : Nat) :
    (dataOf (shlVal a n)).toNat = ((dataOf a).toNat * 2 ^ n) % 65536 := by
  rw [dataOf_shlVal, BitVec.toNat_shiftLeft, Nat.shiftLeft_eq]

/-- The flag of the result is bit `16 - n` of the value shifted, flag included. -/
theorem flagOf_shlVal (a : RegVal) {n : Nat} (h : n ≤ 16) : flagOf (shlVal a n) = a.getLsbD (16 - n) := by
  rw [flagOf, shlVal, BitVec.getLsbD_shiftLeft, decide_eq_false (Nat.not_lt.mpr h)]
  rfl

theorem flagOf_shlVal_zero (a : RegVal) : flagOf (shlVal a 0) = flagOf a := flagOf_shlVal a (Nat.zero_le 16)

theorem flagOf_shlVal_data (a : RegVal) {n : Nat} (h1 : 1 ≤ n) (h16 : n ≤ 16) :
    flagOf (shlVal a n) = (dataOf a).getLsbD (16 - n) := by
  rw [flagOf_shlVal a h16, dataOf_getLsbD a (by omega)]

/-- A zero that entered at bit 0 has reached the flag. -/
theorem flagOf_shlVal_above (a : RegVal) {n : Nat} (h : 17 ≤ n) : flagOf (shlVal a n) = false := by
  rw [flagOf, shlVal, BitVec.getLsbD_shiftLeft, decide_eq_true (Nat.lt_of_succ_le h)]
  rfl

/-! ### SHL as a commit -/

theorem exec_shl (rd rs1 rs2 : Reg) (s : State) :
    exec (.shl rd rs1 rs2) s = .next (commit [rs1, rs2] [rs1, rs2]
      (some (rd, shlVal (srcVal s rs1) (shiftAmount s.cfg.shiftAmountMode (srcVal s rs2)))) s) := rfl

end Sys2Proof.Machine
end

section
/-! PROOF. The obligations that cite spec/42_shift.md. -/

namespace Sys2Proof.Machine

/-- Settles O20: SHL commits `shlVal` of its sources, whose flag is bit `16 - n` of the value shifted: its flag,
a data bit, or nothing. -/
theorem shlShiftsSeventeenBits : Obligations.ShlShiftsSeventeenBits := by
  intro s rd rs1 rs2 a n
  refine ⟨_, shlVal a n, exec_shl rd rs1 rs2 s, commit_only _ _ _ _, shlVal_data_arith a n, ?zero, ?data, ?above⟩
  case zero =>
    intro hn
    rw [hn, flagOf_shlVal_zero]
  case data => exact flagOf_shlVal_data a
  case above => exact flagOf_shlVal_above a

/-- Settles O17: a bit field from bit 0 is the remainder by its size. -/
theorem shiftAmountByMode : Obligations.ShiftAmountByMode := by
  intro b d
  refine ⟨shiftAmount_of_le, fun h => ⟨?low4, ?low5, shiftAmount_full⟩⟩
  case low4 => rw [shiftAmount_low4 h, BitVec.extractLsb'_toNat, Nat.shiftRight_zero]
  case low5 => rw [shiftAmount_low5 h, BitVec.extractLsb'_toNat, Nat.shiftRight_zero]

end Sys2Proof.Machine
end

section
/-! SUPPORT. Flag and data of the value that SUI writes, ADDI as a commit, and the jump to the instruction's own address
(spec/43_immediate.md R252, R253, spec/47_control_transfer.md R291). -/

namespace Sys2Proof.Machine

/-! ### The value of SUI -/

@[simp] theorem flagOf_suiVal (low : SuiLow) (t : RegVal) (imm8 : BitVec 8) : flagOf (suiVal low t imm8) = false :=
  flagOf_mkVal _ _

/-- imm8 stands above the low byte, whichever that is. -/
theorem dataOf_suiVal_toNat (low : SuiLow) (t : RegVal) (imm8 : BitVec 8) :
    (dataOf (suiVal low t imm8)).toNat = imm8.toNat * 256 + (suiLowByte low t).toNat := by
  rw [suiVal, dataOf_mkVal, BitVec.toNat_append, ← Nat.shiftLeft_add_eq_or_of_lt (suiLowByte low t).isLt,
    Nat.shiftLeft_eq]

@[simp] theorem suiLowByte_clear_toNat (t : RegVal) : (suiLowByte .clear t).toNat = 0 := rfl

@[simp] theorem suiLowByte_keep_toNat (t : RegVal) : (suiLowByte .keep t).toNat = (dataOf t).toNat % 256 := by
  rw [suiLowByte, BitVec.extractLsb'_toNat, Nat.shiftRight_zero]

/-! ### ADDI -/

theorem exec_addi (rd rs1 : Reg) (imm4 : BitVec 4) (s : State) :
    exec (.addi rd rs1 imm4) s =
      .next (commit [rs1] [rs1] (some (rd, addiVal s.cfg.imm4Ext (srcVal s rs1) imm4)) s) := rfl

/-- ADDI with imm4 = 0 is the data move: the flag of the source is dropped. -/
theorem addiVal_zero (ext : Ext) (a : RegVal) : addiVal ext a 0#4 = zext17 (dataOf a) := by
  have hk : imm4Addend ext 0#4 = 0#17 := by cases ext <;> rfl
  rw [addiVal, hk, BitVec.add_zero]

/-- A branch that neither decrements R13 nor pops R14 only writes R15. -/
theorem commit_branch_of_not_mem {reads decs : List Reg} (h14 : .r14 ∉ reads) (h13 : .r13 ∉ decs) (v : RegVal)
    (s : State) : commit reads decs (some (.r15, v)) s = s.withR15 v := by
  simp [commit, commitDec, commitStack, commitPlain, commitPc, destAt, h14, h13]

end Sys2Proof.Machine
end

section
/-! PROOF. The obligations that cite spec/43_immediate.md. -/

namespace Sys2Proof.Machine

/-- Settles O22, by the setting of `SUI_LOW`, which fixes the read positions and the low byte together. -/
theorem suiSetsUpperByte : Obligations.SuiSetsUpperByte := by
  intro s rd imm8
  have hexec := exec_sui rd imm8 s
  constructor
  · intro hclear
    rw [hclear] at hexec
    refine ⟨_, suiVal .clear (destVal s rd) imm8, hexec, commit_only _ _ _ _, flagOf_suiVal _ _ _, ?_⟩
    rw [dataOf_suiVal_toNat, suiLowByte_clear_toNat, Nat.add_zero]
  · intro hkeep
    rw [hkeep] at hexec
    refine ⟨_, suiVal .keep (destVal s rd) imm8, hexec, commit_only _ _ _ _, flagOf_suiVal _ _ _, ?_⟩
    rw [dataOf_suiVal_toNat, suiLowByte_keep_toNat]

/-- Settles O23, by the sign of the extended imm4: the flag is the carry of an addend below 2^16, and the borrow of one
that is negative modulo 2^17. -/
theorem addiAddsImmediate : Obligations.AddiAddsImmediate := by
  intro s rd rs1 imm4 a k
  refine ⟨_, addiVal s.cfg.imm4Ext (srcVal s rs1) imm4, exec_addi rd rs1 imm4 s, commit_only _ _ _ _,
    addiVal_nonneg _, ?_⟩
  rintro ⟨hsign, hk⟩
  rw [hsign]
  exact addiVal_neg _ hk

/-- Settles O11: R15 reads as `pc`, the data move drops its flag, and the branch goes back to `pc`. -/
theorem jumpToSelfStays : Obligations.JumpToSelfStays := by
  intro s hoff
  have hread : dataOf (srcVal s .r15) = s.pc := by
    rw [srcVal_of_ne_r13 (by decide), destVal_r15, dataOf_mkVal, hoff]
    exact BitVec.add_zero _
  have hbranch : s.withR15 (zext17 s.pc) = { s with r15f := false } := by
    rw [State.withR15, dataOf_zext17, flagOf_zext17]
  rw [exec_addi, addiVal_zero, hread, commit_branch_of_not_mem (by decide) (by decide), hbranch]

end Sys2Proof.Machine
end

section
/-! SUPPORT. The position of the highest set bit, flag and data of the value that BITW writes, and BITW as a commit
(spec/44_bitw.md R260, R261). -/

namespace Sys2Proof.Machine

/-! ### The highest set bit -/

section
variable {m : Word16} {k : Nat}

theorem highBitBelow_succ_of_set (h : m.getLsbD k = true) : highBitBelow (k + 1) m = k + 1 := if_pos h

theorem highBitBelow_succ_of_clear (h : m.getLsbD k = false) : highBitBelow (k + 1) m = highBitBelow k m :=
  if_neg (Bool.eq_false_iff.mp h)

theorem highBitBelow_zero (n : Nat) : highBitBelow n 0 = 0 := by
  induction n with
  | zero => rfl
  | succ n ih => exact (highBitBelow_succ_of_clear BitVec.getLsbD_zero).trans ih

/-- The search goes down from bit `n - 1` and passes every clear bit above the highest set one. -/
theorem highBitBelow_of_highest (hset : m.getLsbD k = true) (habove : ∀ j, k < j → m.getLsbD j = false)
    {n : Nat} (hkn : k < n) : highBitBelow n m = k + 1 := by
  induction n with
  | zero => exact absurd hkn (Nat.not_lt_zero k)
  | succ n ih =>
    rcases Nat.lt_succ_iff_lt_or_eq.mp hkn with hlt | rfl
    · rw [highBitBelow_succ_of_clear (habove n hlt), ih hlt]
    · exact highBitBelow_succ_of_set hset

theorem highBit_zero : highBit 0 = 0 := highBitBelow_zero 16

theorem highBit_of_highest (hset : m.getLsbD k = true) (habove : ∀ j, k < j → m.getLsbD j = false) :
    highBit m = k + 1 :=
  highBitBelow_of_highest hset habove (BitVec.lt_of_getLsbD hset)

end

/-! ### The value of BITW -/

section
variable (a b : RegVal)

@[simp] theorem flagOf_bitwVal : flagOf (bitwVal a b) = false := flagOf_mkVal _ _

@[simp] theorem dataOf_bitwVal : dataOf (bitwVal a b) = BitVec.ofNat 16 (highBit (dataOf a &&& dataOf b)) :=
  dataOf_mkVal _ _

end

/-- Without a common set bit the data is 0. -/
theorem dataOf_bitwVal_of_disjoint {a b : RegVal} (h : dataOf a &&& dataOf b = 0) : dataOf (bitwVal a b) = 0 := by
  rw [dataOf_bitwVal, h, highBit_zero]
  rfl

/-- A position is at most 16, so the data holds it whole. -/
theorem dataOf_bitwVal_of_highest {a b : RegVal} {k : Nat} (hset : (dataOf a &&& dataOf b).getLsbD k = true)
    (habove : ∀ j, k < j → (dataOf a &&& dataOf b).getLsbD j = false) : (dataOf (bitwVal a b)).toNat = k + 1 := by
  have hk : k < 16 := BitVec.lt_of_getLsbD hset
  rw [dataOf_bitwVal, highBit_of_highest hset habove, BitVec.toNat_ofNat, Nat.mod_eq_of_lt (by omega)]

/-! ### BITW as a commit -/

theorem exec_bitw (rd rs1 rs2 : Reg) (s : State) :
    exec (.bitw rd rs1 rs2) s = .next (commit [rs1, rs2] [rs1, rs2]
      (some (rd, bitwVal (srcVal s rs1) (srcVal s rs2))) s) := rfl

end Sys2Proof.Machine
end

section
/-! PROOF. The obligations that cite spec/44_bitw.md. -/

namespace Sys2Proof.Machine

/-- Settles O16: BITW commits `bitwVal` of its sources, and the search for the highest set bit of their common data ends at
that bit, or at 0 when there is none. -/
theorem bitwWritesHighestCommonBit : Obligations.BitwWritesHighestCommonBit := by
  intro s rd rs1 rs2 m
  exact ⟨_, bitwVal (srcVal s rs1) (srcVal s rs2), exec_bitw rd rs1 rs2 s, commit_only _ _ _ _, flagOf_bitwVal _ _,
    dataOf_bitwVal_of_disjoint, fun _ => dataOf_bitwVal_of_highest⟩

end Sys2Proof.Machine
end

section
/-! SUPPORT. The wrapped sum as the effective address, and LOAD and STORE of a RAM word as commits
(spec/45_load_store.md R265 to R267). -/

namespace Sys2Proof.Machine

section
variable {s : State} {rs1 rs2 : Reg}

theorem effAddr_of_wrapped_sum {ea : Word16}
    (h : ea.toNat = ((dataOf (srcVal s rs1)).toNat + (dataOf (srcVal s rs2)).toNat) % 65536) :
    effAddr s rs1 rs2 = ea :=
  BitVec.eq_of_toNat_eq ((BitVec.toNat_add _ _).trans h.symm)

/-- The read leaves the state to the commit as it was. -/
theorem exec_load_ram (h : dataRegion s.cfg (effAddr s rs1 rs2) = .ram) (rd : Reg) :
    exec (.load rd rs1 rs2) s = .next (commit [rs1, rs2] [rs1, rs2]
      (some (rd, mkVal false (ramWord s (effAddr s rs1 rs2)))) s) := by
  rw [exec_load, memRead_ram h]

/-- The commit starts from the state with the one word written. -/
theorem exec_store_ram (h : dataRegion s.cfg (effAddr s rs1 rs2) = .ram) (rd : Reg) :
    exec (.store rd rs1 rs2) s = .next (commit [rd, rs1, rs2] [rd, rs1, rs2] none
      (s.withDmem (memInsert s.dmem (effAddr s rs1 rs2).toNat (dataOf (srcVal s rd))))) := by
  rw [exec_store, memWrite_ram h]

end

end Sys2Proof.Machine
end

section
/-! PROOF. The obligations that cite spec/45_load_store.md. -/

namespace Sys2Proof.Machine

/-- Settles O28: LOAD commits the word at the wrapped sum, and nothing but the commit happens. -/
theorem loadReadsRam : Obligations.LoadReadsRam := by
  intro s rd rs1 rs2 ea hsum hdmem hlow
  obtain rfl : effAddr s rs1 rs2 = ea := effAddr_of_wrapped_sum hsum
  have hram : dataRegion s.cfg (effAddr s rs1 rs2) = .ram := (dataRegion_ram_iff _ _).mpr ⟨hlow, hdmem⟩
  exact ⟨_, exec_load_ram hram rd, commit_only _ _ _ _⟩

/-- Settles O31: the commit keeps every word of the RAM it starts from, which differs from the RAM before in the one
word written. -/
theorem storeWritesRam : Obligations.StoreWritesRam := by
  intro s rd rs1 rs2 ea hwf hsum hdmem hlow
  obtain rfl : effAddr s rs1 rs2 = ea := effAddr_of_wrapped_sum hsum
  have hram : dataRegion s.cfg (effAddr s rs1 rs2) = .ram := (dataRegion_ram_iff _ _).mpr ⟨hlow, hdmem⟩
  obtain ⟨hreg, ⟨himem, hword, hevents, hdevIn⟩, hsys⟩ := commit_only [rd, rs1, rs2] [rd, rs1, rs2] none
    (s.withDmem (memInsert s.dmem (effAddr s rs1 rs2).toNat (dataOf (srcVal s rd))))
  refine ⟨_, exec_store_ram hram rd, hreg, ?written, ?others, himem, hevents, hdevIn, hsys⟩
  case written => exact (hword _).trans (ramWord_withDmem_same s _ _)
  case others => exact fun a hne => (hword a).trans (ramWord_withDmem_other hwf _ hne)

end Sys2Proof.Machine
end

section
/-! SUPPORT. The commit of a write of R0 to R7 with no other effect on a register, and NOP as an AND
(spec/10_state.md R137, spec/47_control_transfer.md R285). -/

namespace Sys2Proof.Machine

/-! ### A write of R0 to R7 -/

/-- Writing back what the register holds changes nothing. -/
theorem withLo_destVal (s : State) (i : Fin 8) : s.withLo i (destVal s (.lo i)) = s := by
  rw [destVal_lo, State.withLo, Vector.set_getElem_self]

/-- A commit that neither decrements R13 nor pops R14 writes the register and goes on to the next word. -/
theorem commit_lo_of_not_mem {reads decs : List Reg} (h14 : .r14 ∉ reads) (h13 : .r13 ∉ decs) (i : Fin 8)
    (v : RegVal) (s : State) :
    commit reads decs (some (.lo i, v)) s = (s.withLo i v).withPc (s.pc + 1) := by
  simp [commit, commitDec, commitStack, commitPlain, commitPc, destAt, h14, h13]

/-! ### NOP -/

/-- NOP executes by the rule of AND (R285). -/
theorem exec_nop (s : State) : exec .nop s = exec (.and .r0 .r0 .r0) s := rfl

/-- With 17-bit logic the AND of a register with itself is its value, flag included. -/
theorem logicResult_and_self {s : State} (hw : s.cfg.logicWidth = .w17) {rs : Reg} (hrs : rs ≠ .r13) :
    logicResult s.cfg.logicWidth (srcVal s rs &&& srcVal s rs) = destVal s rs := by
  rw [hw, logicResult, BitVec.and_self, srcVal_of_ne_r13 hrs]

end Sys2Proof.Machine
end

section
/-! PROOF. The obligations that cite spec/47_control_transfer.md. -/

namespace Sys2Proof.Machine

/-- Settles O13: the AND writes R0's own value back to R0, so the commit leaves only the step to the next word. -/
theorem nopChangesOnlyPc : Obligations.NopChangesOnlyPc := by
  intro s
  refine ⟨exec_nop s, fun hw => ?_⟩
  calc exec .nop s
      = .next (commit [.r0, .r0] [.r0, .r0] (some (.r0, destVal s .r0)) s) := by
        rw [exec_nop, exec_and, logicResult_and_self hw (by decide)]
    _ = .next ((s.withLo 0 (destVal s .r0)).withPc (s.pc + 1)) := by
        rw [commit_lo_of_not_mem (by decide) (by decide)]
    _ = .next { s with pc := s.pc + 1 } := by rw [withLo_destVal, State.withPc]

end Sys2Proof.Machine
end

section
/-! SUPPORT. Which line an interrupt entry takes, IRET in a service routine, what can end one, and a read of SWITCHES
(spec/60_exceptions.md R308, R310, R315 to R317, R343). -/

namespace Sys2Proof.Machine

/-! ### The line that is taken -/

/-- IRQ1 comes before IRQ2 (R308). -/
theorem irqTaken_of_request {s : State} (hisr : s.isrActive = false) {irq1 irq2 : Bool}
    (hreq : (irq1 || irq2) = true) : irqTaken s irq1 irq2 = some (if irq1 then .irq1 else .irq2) := by
  refine (irqTaken_some_iff _ _ _ _).mpr ⟨hisr, ?_⟩
  cases irq1 with
  | true => exact .inl ⟨rfl, rfl⟩
  | false => exact .inr ⟨rfl, hreq, rfl⟩

theorem irqTaken_of_isrActive {s : State} (hisr : s.isrActive = true) (irq1 irq2 : Bool) :
    irqTaken s irq1 irq2 = none :=
  if_pos hisr

theorem irqVector_of_priority (irq1 : Bool) :
    irqVector (if irq1 then .irq1 else .irq2) = if irq1 then 0x3FE0#16 else 0x3FC0#16 := by
  cases irq1 <;> rfl

theorem cpuStep_takes {s : State} {irq1 irq2 : Bool} {k : IrqLine} (hon : s.altair.on = false)
    (hirq : irqTaken s irq1 irq2 = some k) : cpuStep irq1 irq2 s = .next (takeInterrupt k s) := by
  simp [cpuStep, hon, hirq]

/-! ### IRET in a service routine -/

theorem exec_iret_inside {s : State} (hisr : s.isrActive = true) : exec .iret s = .next (returnFromInterrupt s) :=
  if_pos hisr

/-- No other word has the meaning of IRET (R199). -/
theorem eq_iret_word_of_decode {w : Word16} (h : decode w = .iret) : w = 0x9F00#16 := by
  rw [← encode_decode w, h]
  rfl

/-! ### What ends a service routine -/

theorem accessed_isrActive (i : Instr) (s : State) : (accessed i s).isrActive = s.isrActive := by
  obtain ⟨_, _, _, _, h⟩ := accessed_frame i s
  rw [h]

/-- An instruction that commits keeps the routine active, so one that ends it is IRET. -/
theorem eq_iret_of_exec_ends_isr {i : Instr} {s t : State} (h : exec i s = .next t) (hs : s.isrActive = true)
    (ht : t.isrActive = false) : i = .iret := by
  rcases exec_cases i s with ⟨hret, _⟩ | ⟨_, dest, _, hcom⟩
  · obtain ⟨hi, _⟩ := (leavesIsr_iff i s).mp hret
    exact hi
  · obtain rfl := Host.Outcome.next.inj (hcom.symm.trans h)
    rw [commit_isrActive, accessed_isrActive, hs] at ht
    cases ht

theorem iret_word_of_cpuStep_ends_isr {irq1 irq2 : Bool} {s t : State} (h : cpuStep irq1 irq2 s = .next t)
    (hs : s.isrActive = true) (ht : t.isrActive = false) : s.altair.on = false ∧ imemWord s s.pc = 0x9F00#16 := by
  rcases cpuStep_cases irq1 irq2 s with ⟨_, hc⟩ | ⟨_, k, hk, _⟩ | ⟨_, _, _, hc⟩ | ⟨hon, _, _, hc⟩
  · cases hc.symm.trans h
    cases hs.symm.trans ht
  · cases (irqTaken_of_isrActive hs irq1 irq2).symm.trans hk
  · cases hc.symm.trans h
  · exact ⟨hon, eq_iret_word_of_decode (eq_iret_of_exec_ends_isr (hc.symm.trans h) hs ht)⟩

theorem panelWrite_isrActive (s : State) (sel : MemSel) (a v : Word16) :
    (panelWrite s sel a v).isrActive = s.isrActive := by
  cases sel with
  | imem =>
    dsimp only [panelWrite]
    split <;> rfl
  | data =>
    obtain ⟨_, _, h⟩ := memWrite_frame s a v
    rw [panelWrite, h]

/-- The panel's other buttons do not touch the processor. -/
theorem hostAction_isrActive {a : HostAction} (ha : a ≠ .btnr) (s : State) :
    (hostAction a s).isrActive = s.isrActive := by
  cases a <;> dsimp only [hostAction]
  case btnr => exact absurd rfl ha
  case btnc | setSwitches => rfl
  case btnlShort | btnlLong => split <;> rfl
  case btnu =>
    split
    · obtain ⟨_, _, _, _, h⟩ := examine_frame s
      rw [h]
    · rfl
  case btnd =>
    split
    · exact panelWrite_isrActive s s.altair.sel s.altair.addr s.switches
    · rfl

/-! ### SWITCHES -/

/-- A read of SWITCHES gives the word presented, takes no queued answer and is one event (R343). -/
theorem memRead_switches (s : State) :
    memRead s 0xFFFE#16 = (s.switches, s.record (.read 0xFFFE#16 s.switches)) := by
  simp only [memRead, dataRegion_switches, deviceValue]

end Sys2Proof.Machine
end

section
/-! PROOF. The obligations that cite spec/60_exceptions.md. -/

namespace Sys2Proof.Machine

/-- Settles O39: the turn takes the requesting line of higher priority. -/
theorem interruptEntrySavesContext : Obligations.InterruptEntrySavesContext := by
  intro s irq1 irq2 rest hturn hon hisr hreq
  rw [step_of_cpuTurn hturn,
    cpuStep_takes (s := s.withEnv rest) hon (irqTaken_of_request (s := s.withEnv rest) hisr hreq),
    takeInterrupt_eq, irqVector_of_priority]
  rfl

/-- Settles O42: of the person's actions only BTNR, and of the CPU's turns only one that runs IRET, can end it. -/
theorem isrEndsOnlyByIretOrReset : Obligations.IsrEndsOnlyByIretOrReset := by
  intro s t h hs ht
  rcases step_cases s with ⟨a, rest, henv, hstep⟩ | ⟨irq1, irq2, rest, hturn, hstep⟩
  · by_cases ha : a = .btnr
    · exact .inl ⟨rest, ha ▸ henv⟩
    · obtain rfl := Host.Outcome.next.inj (hstep.symm.trans h)
      rw [hostAction_isrActive ha, withEnv_isrActive, hs] at ht
      cases ht
  · obtain ⟨hon, hword⟩ := iret_word_of_cpuStep_ends_isr (s := s.withEnv rest) (hstep.symm.trans h) hs ht
    exact .inr ⟨irq1, irq2, rest, hturn, hon, hword⟩

/-- Settles O37: IRET is the return from the interrupt, by `SHADOW_MODE`. -/
theorem iretRestoresContext : Obligations.IretRestoresContext := by
  intro s hisr
  rw [exec_iret_inside hisr, returnFromInterrupt_eq]
  refine ⟨fun hcopy => ?_, fun hbank => ?_⟩
  · rw [if_pos hcopy]
  · rw [if_neg (by simp [hbank])]

/-- Settles O40, from O45: no line is taken. -/
theorem noNestedInterrupt : Obligations.NoNestedInterrupt :=
  fun s irq1 irq2 rest hturn hon hisr hpc =>
    stepRunsDecodedInstruction s irq1 irq2 rest _ hturn hon (irqTaken_of_isrActive hisr irq1 irq2) hpc rfl

/-- Settles O41: the return undoes the entry, which has saved R0 to R7 and `pc`. -/
theorem interruptThenIretResumes : Obligations.InterruptThenIretResumes := by
  intro s k regs at' hisr
  rw [takeInterrupt_eq, exec_iret_inside rfl, returnFromInterrupt_eq, hisr]

/-- Settles O60: the LOAD is the commit after the one recorded read of SWITCHES. -/
theorem setSwitchesChangesOnlySwitches : Obligations.SetSwitchesChangesOnlySwitches := by
  intro s v rest henv
  refine ⟨_, step_of_host henv, rfl, fun rd rs1 rs2 hea => ?_⟩
  have hexec := exec_load rd rs1 rs2 ((s.withEnv rest).withSwitches v)
  have hea' : effAddr ((s.withEnv rest).withSwitches v) rs1 rs2 = 0xFFFE#16 := hea
  rw [hea', memRead_switches] at hexec
  exact ⟨_, hexec, commit_registers _ _ _ _, commit_events _ _ _ _⟩

end Sys2Proof.Machine
end

section
/-! SUPPORT. The other speed and the other memory, the buttons of Altair mode, and the display in each mode
(spec/70_reset_and_hazards.md R400 to R402). -/

namespace Sys2Proof.Machine

theorem otherSpeed_eq_fast_iff (v : Speed) : otherSpeed v = .fast ↔ v = .slow := by
  cases v <;> simp [otherSpeed]

theorem otherSel_eq_imem_iff (sel : MemSel) : otherSel sel = .imem ↔ sel = .data := by
  cases sel <;> simp [otherSel]

section
variable {s : State}

theorem hostAction_btnlShort_off (h : s.altair.on = false) : hostAction .btnlShort s = enterAltair s := by
  simp [hostAction, h]

theorem hostAction_btnlShort_on (h : s.altair.on = true) :
    hostAction .btnlShort s = s.withAltair { s.altair with sel := otherSel s.altair.sel, shown := none } :=
  if_pos h

theorem hostAction_btnlLong_on (h : s.altair.on = true) :
    hostAction .btnlLong s = s.withAltair { s.altair with on := false } :=
  if_pos h

theorem display_off (h : s.altair.on = false) :
    display s = { digits := s.pc, dp0 := none, dp1 := some s.isrActive, dp2 := none, dp3 := none } := by
  simp [display, h]

theorem display_on (h : s.altair.on = true) :
    display s = { digits := s.altair.addr, dp0 := none, dp1 := none, dp2 := some (s.altair.sel == .data),
                  dp3 := some (s.altair.sel == .imem) } :=
  if_pos h

end

end Sys2Proof.Machine
end

section
/-! PROOF. The obligations that cite spec/70_reset_and_hazards.md. -/

namespace Sys2Proof.Machine

/-- Settles O51: each register's value is read off from the power-up state. -/
theorem powerUpState : Obligations.PowerUpState := by
  refine ⟨?lo, ?hi, rfl, rfl, ?stk, rfl, rfl, ?sh, rfl, rfl, rfl, rfl⟩
  case hi => exact (by decide : ∀ i : Fin 5, State.reset.hi[i.val] = if i.val = 4 then 1 else 0)
  all_goals exact fun _ => Vector.getElem_replicate ..

/-- Settles O57, button by button. -/
theorem altairButtons : Obligations.AltairButtons := by
  intro s rest
  refine ⟨fun henv hoff => ?enter, fun henv hon => ?toggle, fun henv hon => ?exit⟩
  case enter =>
    have hstep := step_of_host henv
    rw [hostAction_btnlShort_off (s := s.withEnv rest) hoff] at hstep
    exact ⟨_, hstep, rfl, rfl, rfl⟩
  case toggle =>
    have hstep := step_of_host henv
    rw [hostAction_btnlShort_on (s := s.withEnv rest) hon] at hstep
    exact ⟨_, hstep, hon, rfl, otherSel_eq_imem_iff s.altair.sel, rfl⟩
  case exit =>
    rw [step_of_host henv, hostAction_btnlLong_on (s := s.withEnv rest) hon]
    rfl

/-- Settles O58: the step only replaces the speed by the other one. -/
theorem speedButtonChangesOnlySpeed : Obligations.SpeedButtonChangesOnlySpeed :=
  fun s _ henv => ⟨otherSpeed s.speed, step_of_host henv, otherSpeed_eq_fast_iff s.speed⟩

/-- Settles O59, mode by mode. -/
theorem displayShowsState : Obligations.DisplayShowsState := by
  intro s
  refine ⟨fun hoff => ?normal, fun hon => ?altair⟩
  case normal =>
    rw [display_off hoff]
    exact ⟨rfl, rfl⟩
  case altair =>
    rw [display_on hon]
    exact ⟨rfl, by simp, by simp⟩

end Sys2Proof.Machine
end
